-- ==== Sys2Proof/Word.lean ====
section
/-! DEFINITION. The widths of the sequencer: bytes and 32-bit register values (spec/00_scope.md R10, R11). -/

namespace Sys2Proof

/-- One byte of a CR/CSR slot, of a relocation tuple or of the image (R10: vector and level are 8-bit). -/
abbrev Byte := BitVec 8

/-- One register value of the window: every bus transaction is 32 bits wide (R10, R66). -/
abbrev Word := BitVec 32

end Sys2Proof
end

