-- ==== Sys2Proof/Syntax.lean ====
section
/-! DEFINITION. The six commands (spec/opcode_table.json, R92) and the assembler's lines (R105, R106). -/

namespace Sys2Proof

/-- The commands of the sequencer, one constructor a row of spec/opcode_table.json (R3, R92). CSR_WRITE carries its
byte in the command word; every other operand comes from an operand register. -/
inductive Instr where
  | csrRead
  | csrWrite (byte : Byte)
  | unlock
  | isActive
  | load
  | activate
  deriving DecidableEq, Repr

/-- One line of a command program (R105) or a pseudo-instruction (R106). Numbers are naturals as written; WellFormed
says which of them fit. -/
inductive AsmLine where
  /-- `.window mapped` / `.window unmapped` -/
  | window (mapped : Bool)
  /-- `.image <b0>, <b1>, ...` -/
  | image (bytes : List Nat)
  /-- `.image null` -/
  | imageNull
  /-- `.image empty` -/
  | imageEmpty
  /-- `.config <addr>, <vec>, <lvl>` -/
  | config (addr vec lvl : Nat)
  /-- `csr.rd <off>` -/
  | csrRd (off : Nat)
  /-- `csr.wr <off>, <byte>` -/
  | csrWr (off byte : Nat)
  | unlock
  | isactive
  | load
  | activate
  /-- `wait`: the host waits until `STATUS.BUSY = 0` -/
  | wait
  /-- `.word <cw>`: offer the raw command word -/
  | word (cw : Nat)
  /-- `probe` = `unlock` `wait` `isactive` `wait` -/
  | probe
  /-- `csr.set <bits>` -/
  | csrSet (bits : Nat)
  /-- `csr.clr <bits>` -/
  | csrClr (bits : Nat)
  /-- `configure`: `load` `wait`, then `activate` `wait` only after `Success` -/
  | configure
  deriving DecidableEq, Repr

end Sys2Proof
end

