-- ==== Sys2Proof/Decode.lean ====
section
/-! DEFINITION. The command word (spec/30_encoding.md R90 to R94): a decoder, total on every 32-bit word, that rejects
by name, and the encoder, written from the same table. -/

namespace Sys2Proof

/-- Why a command word is refused (R93). -/
inductive DecodeError where
  /-- `OPC` is 0x0 or 0x7 to 0xF -/
  | reservedOpcode
  /-- bits 31:12 are not all 0 -/
  | reservedBits
  /-- bits 11:4 are not 0 in a command other than CSR_WRITE -/
  | byteNotZero
  deriving DecidableEq, Repr

/-- Field `OPC = CW[3:0]` (R91). -/
def opcField (cw : Word) : BitVec 4 := cw.extractLsb' 0 4

/-- Field `BYTE = CW[11:4]` (R91). -/
def byteField (cw : Word) : Byte := cw.extractLsb' 4 8

/-- The reserved field `CW[31:12]` (R91). -/
def reservedField (cw : Word) : BitVec 20 := cw.extractLsb' 12 20

/-- A command with no byte of its own: bits 11:4 must be 0 (R91, R93). -/
def plainCommand (cw : Word) (i : Instr) : Except DecodeError Instr :=
  if byteField cw = 0#8 then .ok i else .error .byteNotZero

/-- The decoder (R92 to R94). -/
def decode (cw : Word) : Except DecodeError Instr :=
  if reservedField cw = 0#20 then
    match (opcField cw).toNat with
    | 1 => plainCommand cw .csrRead
    | 2 => .ok (.csrWrite (byteField cw))
    | 3 => plainCommand cw .unlock
    | 4 => plainCommand cw .isActive
    | 5 => plainCommand cw .load
    | 6 => plainCommand cw .activate
    | _ => .error .reservedOpcode
  else .error .reservedBits

/-- The opcode of a command (R92). -/
def Instr.opcode : Instr → BitVec 4
  | .csrRead => 0x1#4
  | .csrWrite _ => 0x2#4
  | .unlock => 0x3#4
  | .isActive => 0x4#4
  | .load => 0x5#4
  | .activate => 0x6#4

/-- The `BYTE` field of a command (R91): 0 unless CSR_WRITE. -/
def Instr.byte : Instr → Byte
  | .csrWrite b => b
  | .csrRead | .unlock | .isActive | .load | .activate => 0x00#8

/-- The encoder (R91, R105): `OPC | (BYTE << 4)`, the reserved bits 0. -/
def encode (i : Instr) : Word := i.opcode.setWidth 32 ||| i.byte.setWidth 32 <<< 4

/-- The instruction the decoder reads from the table's word `w` of `nbits` bits. Bits above `nbits` are 0; a command
word is exactly 32 bits (R94), so a longer word that is not 0 above bit 31 is none. -/
def decodeTableWord (nbits w : Nat) : Option Instr :=
  if w % 2 ^ nbits < 2 ^ 32 then (decode (BitVec.ofNat 32 (w % 2 ^ nbits))).toOption else none

end Sys2Proof
end

