-- ==== Sys2Proof/Config.lean ====
section
/-! DEFINITION. What one implementation fixes: the parameters of spec/00_scope.md R8, the candidate
instance of spec/93_implementation_defined.md Part 2, and the free values (no body) the model draws from. -/

namespace Sys2Proof

/-- The parameters of R8, one field each. Offsets, sizes and times are natural numbers (R11: no wrap-around);
flags and register values are bit vectors. `P_LEN_W` is the constant 32 (the width of `IMG_LEN`), so it is no field.
A configuration is fixed for a machine: no step changes it. -/
structure Config where
  /-- `P_WIN_SIZE`: bytes of the register window. -/
  winSize : Nat
  /-- `P_LDR_BASE`: where the loader block starts in the window. -/
  ldrBase : Nat
  /-- `P_OFF_CSR`: loader control/status register, inside the block. -/
  offCsr : Nat
  /-- `P_OFF_BTRIGR`: loader trigger register. -/
  offBtrigr : Nat
  /-- `P_OFF_IDR`: loader identifier register. -/
  offIdr : Nat
  /-- `P_OFF_FIFO_CSR`: loader FIFO status register. -/
  offFifoCsr : Nat
  /-- `P_OFF_FIFO_R0`: loader FIFO control-word register. -/
  offFifoR0 : Nat
  /-- `P_OFF_FIFO_R1`: loader FIFO data register. -/
  offFifoR1 : Nat
  /-- `P_CSR_SWRST`: software-reset flag. -/
  csrSwrst : Word
  /-- `P_CSR_START`: start flag. -/
  csrStart : Word
  /-- `P_CSR_MSBF`: most-significant-byte-first flag. -/
  csrMsbf : Word
  /-- `P_CSR_DONE`: done flag. -/
  csrDone : Word
  /-- `P_CSR_ERROR`: error flag. -/
  csrError : Word
  /-- `P_CSR_EXIT`: exit command flag. -/
  csrExit : Word
  /-- `P_FIFO_FULL`: FIFO-full flag of the FIFO status register. -/
  fifoFull : Word
  /-- `P_XLAST`: last-chunk flag of the control word. -/
  xlast : Word
  /-- `P_ID_WORD`: identifier register value of an active loader. -/
  idWord : Word
  /-- `P_OFF_BITSET`: CR/CSR bit-set register. -/
  offBitset : Nat
  /-- `P_OFF_BITCLR`: CR/CSR bit-clear register. -/
  offBitclr : Nat
  /-- `P_OFF_WBMODE`: bus-width-mode register. -/
  offWbmode : Nat
  /-- `P_OFF_INTVEC`: interrupt-vector register. -/
  offIntvec : Nat
  /-- `P_OFF_INTLVL`: interrupt-level register. -/
  offIntlvl : Nat
  /-- `P_OFF_ADER0`: first byte of the FUN0 ADER, the others at +4, +8, +12. -/
  offAder0 : Nat
  /-- `P_RESET_CORE`: reset-core bit. -/
  resetCore : Byte
  /-- `P_ENABLE_CORE`: enable-core bit. -/
  enableCore : Byte
  /-- `P_WB32`: bus-width selector value of 32-bit mode. -/
  wb32 : Byte
  /-- `P_AM`: the address-modifier constant; R9(6) limits it to six bits. -/
  am : Byte
  /-- `P_SETTLE`: least wait after the core-reset write, in an unnamed unit of time. -/
  settle : Nat
  /-- `P_POLL_LIMIT`: bound on consecutive unsatisfied polls; `none` is the spec's `NONE`. -/
  pollLimit : Option Nat
  /-- `P_POLL_INTERVAL`: least wait between two polls; by R174 no rule depends on it. -/
  pollInterval : Nat
  /-- `P_READBACK`: whether ACTIVATE reads back each field it writes. -/
  readback : Bool
  /-- `P_LAST_ON_FULL`: whether a final chunk of exactly 4 bytes carries the last flag. -/
  lastOnFull : Bool
  deriving DecidableEq, Repr

/-- `P_LEN_W` (R8): the width of the image-length operand. -/
def Config.lenW : Nat := 32

/-- The candidate instance `K` of spec/93_implementation_defined.md Part 2 (G1 to G13) with the defaults of R8:
one possible argument, never the definition. PRESUMED, unsafe (log entry 1): only `State.reset` names it, and every
statement of the package is about all configurations. -/
def Config.candidate : Config where
  winSize := 0x80000
  ldrBase := 0x70000
  offCsr := 0x00
  offBtrigr := 0x04
  offIdr := 0x0C
  offFifoCsr := 0x18
  offFifoR0 := 0x10
  offFifoR1 := 0x14
  csrSwrst := 0x20#32
  csrStart := 0x01#32
  csrMsbf := 0x10#32
  csrDone := 0x02#32
  csrError := 0x04#32
  csrExit := 0x40#32
  fifoFull := 0x00010000#32
  xlast := 0x04#32
  idWord := 0x53564543#32
  offBitset := 0x7FFFB
  offBitclr := 0x7FFF7
  offWbmode := 0x7FF33
  offIntvec := 0x7FF5F
  offIntlvl := 0x7FF5B
  offAder0 := 0x7FF63
  resetCore := 0x80#8
  enableCore := 0x10#8
  wb32 := 0x01#8
  am := 0x09#8
  settle := 10
  pollLimit := none
  pollInterval := 0
  readback := false
  lastOnFull := true

/-- How the device ends one transaction. `done` completes it: a write is accepted (the four bytes are then not
looked at), a read returns the bytes the device shows at `a`, `a+1`, `a+2`, `a+3` at one instant (R62, R71).
`error` answers it with an error and `silent` never completes it (R238). -/
inductive Response where
  | done (b0 b1 b2 b3 : Byte)
  | error
  | silent
  deriving DecidableEq, Repr, Inhabited

/-- The device's answers, a draw at every transaction (R53): the `k`-th transaction that no scripted answer of State
covers is answered with `deviceAnswer k`. A free value: no body, so nothing in Lean can say which answer it is. -/
opaque Config.deviceAnswer : Nat → Response

/-- Bytes under no rule (R167, U6: the pad bytes of a short chunk, any value, chosen at the write). The `k`-th draw
is `freeByte k`. A free value: no body. -/
opaque Config.freeByte : Nat → Byte

end Sys2Proof
end

