-- ==== Sys2Proof/Machine/Operands.lean ====
section
/-! DEFINITION. Addresses, byte order and every register value the sequencer puts on the bus
(spec/20_memory.md R62 to R68, spec/30_encoding.md Part B R97 to R104, spec/42_load_stream.md R164 to R167). -/

namespace Sys2Proof.Machine

open Sys2Proof

/-- `slot(off) = off & ~3` (R13, R67), on natural numbers. -/
def slot (off : Nat) : Nat := off - off % 4

/-- The loader register addresses `LDR(x) = P_LDR_BASE + P_OFF_x` (R13). -/
def ldrCsr (c : Config) : Nat := c.ldrBase + c.offCsr
/-- `LDR(BTRIGR)` (R13, R42). -/
def ldrBtrigr (c : Config) : Nat := c.ldrBase + c.offBtrigr
/-- `LDR(IDR)` (R13, R43). -/
def ldrIdr (c : Config) : Nat := c.ldrBase + c.offIdr
/-- `LDR(FIFO_CSR)` (R13, R44). -/
def ldrFifoCsr (c : Config) : Nat := c.ldrBase + c.offFifoCsr
/-- `LDR(FIFO_R0)` (R13, R45). -/
def ldrFifoR0 (c : Config) : Nat := c.ldrBase + c.offFifoR0
/-- `LDR(FIFO_R1)` (R13, R46). -/
def ldrFifoR1 (c : Config) : Nat := c.ldrBase + c.offFifoR1

/-- `P_OFF_ADER0 + 4k` (R51, R206). -/
def aderOff (c : Config) (k : Nat) : Nat := c.offAder0 + 4 * k

/-- The concatenation `{a, b, c, d} = a<<24 | b<<16 | c<<8 | d` of R11, `a` most significant: a read's register value from its four window
bytes in rising address order (R62), and a chunk's data word (R100). -/
def beWord (a b c d : Byte) : Word :=
  a.setWidth 32 <<< 24 ||| b.setWidth 32 <<< 16 ||| c.setWidth 32 <<< 8 ||| d.setWidth 32

/-- The byte of `v` that a 32-bit access puts at the byte `i` past its address (R62): `v[31:24]` at 0, `v[7:0]` at 3. -/
def beByte (v : Word) (i : Nat) : Byte := v.extractLsb' (8 * (3 - i)) 8

/-- A CSR write of byte `b` carries `zext_32(b)` (R102). -/
def csrWord (b : Byte) : Word := b.setWidth 32

/-- A CSR read returns `rd[7:0]` (R102). -/
def csrByte (rd : Word) : Byte := rd.setWidth 8

/-- The unlock bytes (R97). -/
def magic : List Byte := [0xDE#8, 0xAD#8, 0xBE#8, 0xEF#8, 0xCA#8, 0xFE#8, 0xBA#8, 0xBE#8]

/-- Unlock word `j`, `zext_32(MAGIC[j])` (R97); only `j < 8` is ever asked for. -/
def unlockWord (j : Nat) : Word := (magic.getD j 0#8).setWidth 32

/-- `W_SWRST` (R98). -/
def wSwrst (c : Config) : Word := c.csrSwrst
/-- `W_START = P_CSR_START | P_CSR_MSBF` (R98). -/
def wStart (c : Config) : Word := c.csrStart ||| c.csrMsbf
/-- `W_EXIT` (R98). -/
def wExit (c : Config) : Word := c.csrExit

/-- The identifier match: all 32 bits (R101). -/
def idMatches (c : Config) (rd : Word) : Bool := rd == c.idWord

/-- `len = min(4, L - n)` (R160, R164). -/
def chunkLen (len n : Nat) : Nat := min 4 (len - n)

/-- The control word `zext_32(len - 1) | (lf ? P_XLAST : 0)` (R99, R165). -/
def ctrlWord (c : Config) (len : Nat) (lf : Bool) : Word :=
  BitVec.ofNat 32 (len - 1) ||| (if lf then c.xlast else 0#32)

/-- `Img(k)` (R12, R78): byte `k` of the image the host supplied. A position below `IMG_LEN` that the host did not
supply (duty R263(3) broken) is a free byte. -/
def imageByte (image : List Byte) (k draw : Nat) : Byte := (image[k]?).getD (Config.freeByte draw)

/-- `c(i)` of R160: `Img(i)` if `i < L`, else a pad byte, drawn freely (R167). -/
def chunkByte (image : List Byte) (len i draw : Nat) : Byte :=
  if i < len then imageByte image i draw else Config.freeByte draw

/-- The data word `{c(n), c(n+1), c(n+2), c(n+3)}` (R100, R167); draw `d + i` serves byte `i`. -/
def dataWord (image : List Byte) (len n d : Nat) : Word :=
  beWord (chunkByte image len n d) (chunkByte image len (n + 1) (d + 1))
    (chunkByte image len (n + 2) (d + 2)) (chunkByte image len (n + 3) (d + 3))

/-- The relocation tuple, four bytes (R103). -/
structure Tuple where
  b0 : Byte
  b1 : Byte
  b2 : Byte
  b3 : Byte
  deriving DecidableEq, Repr

/-- `tup[k]` for `k = 0..3`. -/
def Tuple.get (t : Tuple) (k : Nat) : Byte :=
  match k with
  | 0 => t.b0
  | 1 => t.b1
  | 2 => t.b2
  | _ => t.b3

/-- `Reloc(addr)` (R103, R205): `[addr[31:24], addr[23:16], addr[15:8], (P_AM << 2) & 0xFF]`. -/
def reloc (c : Config) (addr : Word) : Tuple where
  b0 := addr.extractLsb' 24 8
  b1 := addr.extractLsb' 16 8
  b2 := addr.extractLsb' 8 8
  b3 := c.am <<< 2

end Sys2Proof.Machine
end

