-- ==== Sys2Proof/WellFormed.lean ====
section
/-! DEFINITION. Which configurations a machine is built for (spec/00_scope.md R9 and the domains of R8), and which
assembler lines fit their operands (R105). An `Instr` needs no check: its one operand has the width R91 gives it. -/

namespace Sys2Proof

open Sys2Proof.Machine

/-- The constraints on a configuration, each by name: first the domains of R8's table, then R9 (1) to (6). -/
inductive ConfigCheck where
  /-- R8: `P_WIN_SIZE` is a multiple of 4 -/
  | winSizeAligned
  /-- R8: `P_LDR_BASE` is a multiple of 4 -/
  | ldrBaseAligned
  /-- R8: `P_SETTLE > 0` -/
  | settlePositive
  /-- R8: `P_POLL_LIMIT` is `NONE` or at least 1 -/
  | pollLimitPositive
  /-- R8: `P_FIFO_FULL` has one bit set -/
  | fifoFullOneBit
  /-- R8: `P_RESET_CORE` and `P_ENABLE_CORE` have one bit set each -/
  | coreBitsOneBit
  /-- R9(1): the six loader offsets are multiples of 4 -/
  | loaderAligned
  /-- R9(1): they are pairwise distinct -/
  | loaderDistinct
  /-- R9(1): each loader register lies in the window -/
  | loaderInWindow
  /-- R9(2): SWRST, START, MSBF and EXIT are a single bit each -/
  | commandFlagsOneBit
  /-- R9(2): they are pairwise distinct -/
  | commandFlagsDistinct
  /-- R9(3): DONE and ERROR are a single bit each -/
  | statusFlagsOneBit
  /-- R9(3): they are distinct -/
  | statusFlagsDistinct
  /-- R9(4): XLAST is a single bit -/
  | xlastOneBit
  /-- R9(4): XLAST is at bit 2 or higher -/
  | xlastAboveSize
  /-- R9(5): every CR/CSR slot lies in the window -/
  | csrInWindow
  /-- R9(6): `P_AM < 64` -/
  | amSixBits
  deriving DecidableEq, Repr

/-- Every check, in the order in which a broken configuration is reported. -/
def ConfigCheck.all : List ConfigCheck :=
  [.winSizeAligned, .ldrBaseAligned, .settlePositive, .pollLimitPositive, .fifoFullOneBit, .coreBitsOneBit,
    .loaderAligned, .loaderDistinct, .loaderInWindow, .commandFlagsOneBit, .commandFlagsDistinct,
    .statusFlagsOneBit, .statusFlagsDistinct, .xlastOneBit, .xlastAboveSize, .csrInWindow, .amSixBits]

/-- One bit set: not zero, and clearing the lowest set bit leaves nothing. -/
def oneBit {w : Nat} (v : BitVec w) : Bool := v != 0#w && (v &&& (v - 1#w)) == 0#w

/-- The six offsets of the loader block (R9(1)). -/
def Config.loaderOffsets (c : Config) : List Nat :=
  [c.offCsr, c.offBtrigr, c.offIdr, c.offFifoCsr, c.offFifoR0, c.offFifoR1]

/-- The CR/CSR offsets ACTIVATE uses, the four ADER bytes among them (R9(5), R69). -/
def Config.csrOffsets (c : Config) : List Nat :=
  [c.offBitset, c.offBitclr, c.offWbmode, c.offIntvec, c.offIntlvl,
    aderOff c 0, aderOff c 1, aderOff c 2, aderOff c 3]

/-- Whether `c` meets one check. -/
def Config.holds (c : Config) : ConfigCheck → Bool
  | .winSizeAligned => c.winSize % 4 == 0
  | .ldrBaseAligned => c.ldrBase % 4 == 0
  | .settlePositive => decide (0 < c.settle)
  | .pollLimitPositive => c.pollLimit != some 0
  | .fifoFullOneBit => oneBit c.fifoFull
  | .coreBitsOneBit => oneBit c.resetCore && oneBit c.enableCore
  | .loaderAligned => c.loaderOffsets.all (fun o => o % 4 == 0)
  | .loaderDistinct => decide c.loaderOffsets.Nodup
  | .loaderInWindow => c.loaderOffsets.all (fun o => decide (c.ldrBase + o + 4 ≤ c.winSize))
  | .commandFlagsOneBit => oneBit c.csrSwrst && oneBit c.csrStart && oneBit c.csrMsbf && oneBit c.csrExit
  | .commandFlagsDistinct => decide [c.csrSwrst, c.csrStart, c.csrMsbf, c.csrExit].Nodup
  | .statusFlagsOneBit => oneBit c.csrDone && oneBit c.csrError
  | .statusFlagsDistinct => c.csrDone != c.csrError
  | .xlastOneBit => oneBit c.xlast
  | .xlastAboveSize => (c.xlast &&& 3#32) == 0#32
  | .csrInWindow => c.csrOffsets.all (fun o => decide (slot o + 4 ≤ c.winSize))
  | .amSixBits => decide (c.am.toNat < 64)

/-- A configuration a machine is built for (R9). -/
def Config.wf (c : Config) : Bool := ConfigCheck.all.all c.holds

/-- The first broken check, by name; `none` for a configuration a machine is built for. -/
def Config.firstBroken (c : Config) : Option ConfigCheck := ConfigCheck.all.find? (fun k => !c.holds k)

/-- Whether a line's numbers fit the operands they are written to (R91, R105; R23 for the widths). `csr.set` and `csr.clr`
stand for a `csr.wr` at the configuration's offset (R106), so that offset must fit the 32-bit `ARG_OFF` like any other: with
an offset of 2^32 or more, which only a window over 4 GiB admits, the line is no program. DESIGN CHOICE (log entry 24). -/
def AsmLine.wf (c : Config) : AsmLine → Bool
  | .image bytes => decide (bytes ≠ []) && bytes.all (fun b => decide (b < 2 ^ 8)) && decide (bytes.length < 2 ^ Config.lenW)
  | .config addr vec lvl => decide (addr < 2 ^ 32) && decide (vec < 2 ^ 8) && decide (lvl < 2 ^ 8)
  | .csrRd off => decide (off < 2 ^ 32)
  | .csrWr off byte => decide (off < 2 ^ 32) && decide (byte < 2 ^ 8)
  | .word cw => decide (cw < 2 ^ 32)
  | .csrSet bits => decide (c.offBitset < 2 ^ 32) && decide (bits < 2 ^ 8)
  | .csrClr bits => decide (c.offBitclr < 2 ^ 32) && decide (bits < 2 ^ 8)
  | .window _ | .imageNull | .imageEmpty | .unlock | .isactive | .load | .activate | .wait | .probe | .configure => true

end Sys2Proof
end

