-- ==== Sys2Proof/Machine/State.lean ====
section
/-! DEFINITION. All the state the spec gives the sequencer (spec/10_state.md), what the outside world feeds it, the
record of its bus events, the ways a step can stop, and the state after reset. -/

namespace Sys2Proof.Machine

open Sys2Proof

/-- The phase register, the sequencer's program counter (R22), one constructor a row of R22's table. -/
inductive Phase where
  | idle | fault
  | crRd
  | cwWr
  | ulChk | ulTrig
  | iaRd
  | ldChk | ldTrig | ldDet | ldSwrst | ldStart | ldPollf | ldCtl | ldData | ldPolld | ldExit
  | acRst | acWait | acDis | acWb | acVec | acLvl | acAder | acEn | acRb
  deriving DecidableEq, Repr

/-- The outcomes of R26, coded by R96. -/
inductive CmdOutcome where
  | none | success | unlockFailed | stillLocked | bitstreamRejected | timeout | cmdRefused
  deriving DecidableEq, Repr

/-- The fault causes of R32 and R237. -/
inductive FaultCause where
  | none | windowUnmapped | outOfWindow | busError
  deriving DecidableEq, Repr

/-- `STATUS`, field by field (R25); its 32-bit word is `Status.word`. -/
structure Status where
  busy : Bool
  fault : Bool
  active : Bool
  ovr : Bool
  outcome : CmdOutcome
  rdata : Byte
  deriving DecidableEq, Repr

/-- `FAULT_INFO` (R32). -/
structure FaultInfo where
  cause : FaultCause
  info : Word
  deriving DecidableEq, Repr

/-- The operand registers (R23), latched when a command is accepted and held until it finishes. -/
structure Operands where
  opc : BitVec 4
  argOff : Word
  argByte : Byte
  imgValid : Bool
  imgLen : BitVec 32
  cfgAddr : Word
  cfgVec : Byte
  cfgLvl : Byte
  winValid : Bool
  deriving DecidableEq, Repr

/-- The host's side of the operand registers: what the host has written and the next acceptance latches (R90, R273:
a later write has no effect on the running command). DEDUCED (log entry 4). -/
structure HostPort where
  argOff : Word
  imgValid : Bool
  imgLen : BitVec 32
  cfgAddr : Word
  cfgVec : Byte
  cfgLvl : Byte
  deriving DecidableEq, Repr

/-- The seven writes of ACTIVATE that a read-back can follow (R200): which of them invoked `AC_RB`. -/
inductive ActWrite where
  | rst | dis | wb | vec | lvl | ader | en
  deriving DecidableEq, Repr

/-- The working registers (R24) and `rb`, the model's own name for the write `AC_RB` returns to (log entry 6).
`none` is the spec's own "holds no value" (R28), not a reset value left out. -/
structure Working where
  n : Option Nat
  j : Option Nat
  k : Option Nat
  pcCnt : Option Nat
  rd : Option Word
  tup : Option Tuple
  res : Option CmdOutcome
  rb : Option ActWrite
  deriving DecidableEq, Repr

/-- The working registers by name. -/
inductive WorkReg where
  | n | j | k | pcCnt | tup | res | rb
  deriving DecidableEq, Repr

/-- One byte of a memory at an address, and a memory as a list of them with rising addresses (`Memory.wf`). -/
abbrev Memory := List Host.Cell

/-- The events of R12, and a transaction the device answered with an error (R238; log entry 9). -/
inductive BusEvent where
  /-- `R a -> v`: one completed 32-bit read -/
  | read (a : Nat) (v : Word)
  /-- `W a v`: one completed 32-bit write -/
  | write (a : Nat) (v : Word)
  /-- `D t`: a wait of at least `t` with no transaction -/
  | delay (t : Nat)
  /-- a transaction at `a` answered with an error -/
  | error (a : Nat)
  deriving DecidableEq, Repr

/-- The device's answers to come (R53: free inputs, under no law): `script` first, then `after` for ever if it is
`some`, else the free values `Config.deviceAnswer count`, where `count` counts the answers taken. -/
structure Device where
  script : List Response
  after : Option Response
  count : Nat
  deriving DecidableEq, Repr

/-- A host write of one operand register (R273). -/
inductive OperandWrite where
  | argOff (v : Word)
  | imgValid (v : Bool)
  | imgLen (v : BitVec 32)
  | cfgAddr (v : Word)
  | cfgVec (v : Byte)
  | cfgLvl (v : Byte)
  deriving DecidableEq, Repr

/-- What the host can do between two steps of the sequencer (R273), and `tick`, nothing. -/
inductive HostInput where
  /-- the host does nothing here: the sequencer takes one step -/
  | tick
  /-- offer a command word (R90, R93, R235) -/
  | offer (cw : Word)
  /-- write an operand register -/
  | write (w : OperandWrite)
  /-- the window provider maps or unmaps the window -/
  | setWindow (mapped : Bool)
  /-- the image provider puts an image in place -/
  | setImage (bytes : List Byte)
  /-- apply the reset input; `landed` says whether a transaction under way still reaches the device (R260 admits both) -/
  | reset (landed : Bool)
  /-- `wait`: the host goes on once `STATUS.BUSY = 0` (R105) -/
  | waitDone
  /-- the host leaves out its next `count` inputs unless `STATUS.OUTCOME = Success` (R106 `configure`) -/
  | skipUnlessSuccess (count : Nat)
  deriving DecidableEq, Repr

/-- The host duties a broken one of which puts a run outside the model (R265, R76). -/
inductive HostDuty where
  | windowStable
  | imageStable
  deriving DecidableEq, Repr

/-- The machine: the sequencer's registers, then the outside world's data. Plain data throughout. -/
structure State where
  /-- the parameters (R8), fixed: no step changes them -/
  cfg : Config
  /-- the phase register (R22) -/
  phase : Phase
  /-- `STATUS` (R25) -/
  status : Status
  /-- `FAULT_INFO` (R32) -/
  faultInfo : FaultInfo
  /-- the latched operand registers (R23) -/
  operands : Operands
  /-- the working registers (R24) -/
  work : Working
  /-- the operand registers as the host last wrote them (R90, R273) -/
  port : HostPort
  /-- whether the window provider has the window mapped (R23 `WIN_VALID` samples it) -/
  winMapped : Bool
  /-- the image `Img(0 ..)` in place (R60, R78) -/
  image : List Byte
  /-- the register window as bytes (R60 to R62): what completed writes last put there. No read is answered from it (R53) -/
  window : Memory
  /-- the bus events so far (R12), the latest first -/
  trace : List BusEvent
  /-- the device's answers to come (R53) -/
  device : Device
  /-- the model's own counter of free bytes drawn (R167) -/
  draws : Nat
  /-- the host's inputs to come, the next first (R273); after the last one the host does nothing more -/
  inputs : List HostInput
  deriving DecidableEq, Repr

/-- How a step can stop with a fault of the model. The faults of R236 are none of these: they are next states in
phase `FAULT`. -/
inductive Fault where
  /-- Raised by a phase that reads a working register no step of the current command has written (R28, U14: "must treat
  ... as a fault, not as zero"). Safe: the model stops. No run from an acceptance reaches it. -/
  | unwritten (r : WorkReg)
  deriving DecidableEq, Repr

/-- How a step can be refused. -/
inductive Refusal where
  /-- An instruction with no meaning yet; raised by no arm of this model. Safe. -/
  | notModelled (mnemonic : String)
  /-- Raised by `step` when the configuration breaks a check of R8 or R9 ("refused by the model (no machine is built for
  it)", U21). Safe. -/
  | configuration (c : ConfigCheck)
  /-- Raised by `step` when the host breaks a duty that has no move in the model (R265, R76 "a run in which it fails is
  outside the model"). Safe. -/
  | hostDuty (d : HostDuty)
  deriving DecidableEq, Repr

/-- `STATUS` after reset (R33). -/
def Status.reset : Status := ⟨false, false, false, false, .none, 0x00#8⟩

/-- `FAULT_INFO` after reset (R33). -/
def FaultInfo.reset : FaultInfo := ⟨.none, 0#32⟩

/-- The operand registers after reset: R33 leaves them unspecified; DESIGN CHOICE zero, unsafe (log entry 3). -/
def Operands.reset : Operands := ⟨0#4, 0#32, 0#8, false, 0#32, 0#32, 0#8, 0#8, false⟩

/-- The host's side of them: DESIGN CHOICE zero, unsafe (log entry 3). -/
def HostPort.reset : HostPort := ⟨0#32, false, 0#32, 0#32, 0#8, 0#8⟩

/-- The working registers hold no value (R28, R33). -/
def Working.empty : Working := ⟨none, none, none, none, none, none, none, none⟩

/-- Reset of a machine with configuration `c` (R33, R260, R262): `IDLE`, `STATUS` and `FAULT_INFO` cleared, nothing
written to the window, no event, no input waiting, and no answer of the device scripted. DESIGN CHOICE (log entry 3):
no image, window not mapped. -/
def State.resetWith (c : Config) : State where
  cfg := c
  phase := .idle
  status := Status.reset
  faultInfo := FaultInfo.reset
  operands := Operands.reset
  work := Working.empty
  port := HostPort.reset
  winMapped := false
  image := []
  window := []
  trace := []
  device := ⟨[], none, 0⟩
  draws := 0
  inputs := []

/-- The machine right after reset, of the candidate instance (log entry 1). -/
def State.reset : State := State.resetWith Config.candidate

end Sys2Proof.Machine
end

