-- ==== Sys2Proof/Machine/Flags.lean ====
section
/-! DEFINITION. The host-visible words and codes (spec/30_encoding.md R95, R96; spec/10_state.md R32), and the flags
the sequencer takes from the device (R31) or computes (R166). -/

namespace Sys2Proof.Machine

open Sys2Proof

/-- The outcome codes (R96); code 7 is never produced. -/
def CmdOutcome.code : CmdOutcome → BitVec 3
  | .none => 0#3
  | .success => 1#3
  | .unlockFailed => 2#3
  | .stillLocked => 3#3
  | .bitstreamRejected => 4#3
  | .timeout => 5#3
  | .cmdRefused => 6#3

/-- The fault cause codes (R32, R237). -/
def FaultCause.code : FaultCause → BitVec 2
  | .none => 0#2
  | .windowUnmapped => 1#2
  | .outOfWindow => 2#2
  | .busError => 3#2

/-- `STATUS` as one word (R95): RDATA 15:8, reserved 7, OUTCOME 6:4, OVR 3, ACTIVE 2, FAULT 1, BUSY 0. -/
def Status.word (s : Status) : Word :=
  s.rdata.setWidth 32 <<< 8 ||| s.outcome.code.setWidth 32 <<< 4 ||| (BitVec.ofBool s.ovr).setWidth 32 <<< 3 |||
    (BitVec.ofBool s.active).setWidth 32 <<< 2 ||| (BitVec.ofBool s.fault).setWidth 32 <<< 1 |||
    (BitVec.ofBool s.busy).setWidth 32

/-- A flag of a device register is set in the value read (R31): only that bit is examined. -/
def flagSet (v flag : Word) : Bool := (v &&& flag) != 0#32

/-- FIFO-full in a FIFO status read (R44, R168). -/
def fifoIsFull (c : Config) (v : Word) : Bool := flagSet v c.fifoFull
/-- Done in a loader CSR read (R41, R170). -/
def isDone (c : Config) (v : Word) : Bool := flagSet v c.csrDone
/-- Error in a loader CSR read (R41, R171). -/
def isError (c : Config) (v : Word) : Bool := flagSet v c.csrError

/-- The last flag of the chunk at `n` (R160, R166): `(L - n <= 4) and (len < 4 or P_LAST_ON_FULL)`. -/
def lastFlag (c : Config) (len n : Nat) : Bool :=
  decide (len - n ≤ 4) && (decide (chunkLen len n < 4) || c.lastOnFull)

/-- The outcome of the session from its done read (R171). -/
def sessionOutcome (c : Config) (v : Word) : CmdOutcome :=
  if isError c v then .bitstreamRejected else .success

/-- The bound of a poll is reached after `count` unsatisfied polls (R173). -/
def limitReached (c : Config) (count : Nat) : Bool := c.pollLimit == some count

end Sys2Proof.Machine
end

