-- ==== Sys2Proof/Machine/Ops.lean ====
section
/-! DEFINITION. The operations every command is written over: memory, the device's answers, one bus transaction, working
registers, accepting, dropping, refusing and finishing a command, raising a fault, and reset. -/

namespace Sys2Proof.Machine

open Sys2Proof

/-- The outcome of one step of this machine. -/
abbrev StepResult := Host.Outcome State Fault Refusal

/-! ### Memory -/

/-- The canonical form: addresses strictly rising (an unlisted address reads as no byte, so no listed byte equals it). -/
def Memory.wf : Memory → Bool
  | [] => true
  | [_] => true
  | p :: q :: rest => decide (p.1 < q.1) && Memory.wf (q :: rest)

/-- The byte last put at `a`; `none` where no completed write has put one. -/
def Memory.read (m : Memory) (a : Nat) : Option Byte :=
  match m with
  | [] => none
  | p :: rest => if p.1 = a then some p.2 else Memory.read rest a

/-- Put byte `b` at `a`, keeping the canonical form. -/
def Memory.write (m : Memory) (a : Nat) (b : Byte) : Memory :=
  match m with
  | [] => [(a, b)]
  | p :: rest =>
    if a < p.1 then (a, b) :: p :: rest
    else if a = p.1 then (a, b) :: rest
    else p :: Memory.write rest a b

/-- A 32-bit write puts `v[31:24]` at `a`, `v[23:16]` at `a+1`, `v[15:8]` at `a+2`, `v[7:0]` at `a+3` (R62). -/
def Memory.writeWord (m : Memory) (a : Nat) (v : Word) : Memory :=
  (((m.write a (beByte v 0)).write (a + 1) (beByte v 1)).write (a + 2) (beByte v 2)).write (a + 3) (beByte v 3)

/-! ### The device's answers -/

/-- The answer to the next transaction (R53). -/
def Device.peek (d : Device) : Response :=
  match d.script with
  | r :: _ => r
  | [] => match d.after with
    | some r => r
    | none => Config.deviceAnswer d.count

/-- That answer is taken. -/
def Device.pop (d : Device) : Device := { d with script := d.script.tail, count := d.count + 1 }

/-- A hanging transaction (R238) that reset abandons: its answer is dropped with it (log entry 17). -/
def Device.abandon (d : Device) : Device := if d.peek = .silent then d.pop else d

/-- A hanging transaction that nevertheless reaches the device (R260): its answer becomes a free one. -/
def Device.land (d : Device) (draw : Nat) : Device :=
  if d.peek = .silent then
    { d with
      script :=
        (.done (Config.freeByte draw) (Config.freeByte (draw + 1)) (Config.freeByte (draw + 2))
          (Config.freeByte (draw + 3))) :: d.script.tail }
  else d

/-! ### Updates of the state -/

/-- `phase <- P` (R12). -/
def State.goto (p : Phase) (s : State) : State := { s with phase := p }

/-- One event is recorded (R12). -/
def State.record (e : BusEvent) (s : State) : State := { s with trace := e :: s.trace }

/-- The device's next answer is taken. -/
def State.answered (s : State) : State := { s with device := s.device.pop }

/-- A completed write: its bytes lie on the window and its event is recorded (R12, R62). -/
def State.wrote (a : Nat) (v : Word) (s : State) : State :=
  { s with window := s.window.writeWord a v, trace := .write a v :: s.trace }

/-- `finish(o)` (R12, R234): `STATUS.OUTCOME <- o`, `STATUS.BUSY <- 0`, `phase <- IDLE`. -/
def State.finish (o : CmdOutcome) (s : State) : State :=
  { s with status := { s.status with outcome := o, busy := false }, phase := .idle }

/-- `raise Fault(cause, info)` (R12, R236): the one way into phase `FAULT`. `STATUS.BUSY` keeps its value. -/
def State.raiseFault (cause : FaultCause) (info : Word) (s : State) : State :=
  { s with status := { s.status with fault := true }, faultInfo := ⟨cause, info⟩, phase := .fault }

/-- Acceptance (R90): operands and `WIN_VALID` latched, `OPC` set, `BUSY <- 1`, `OVR <- 0`, `OUTCOME <- None`, the
command's first phase; the working registers hold no value (R28). `latched` holds the operands this command reads. -/
def State.accept (i : Instr) (first : Phase) (latched : Operands) (s : State) : State :=
  { s with
    operands := { latched with opc := i.opcode, winValid := s.winMapped }
    work := Working.empty
    status := { s.status with busy := true, ovr := false, outcome := .none }
    phase := first }

/-- A command word offered while `phase ≠ IDLE` is dropped (R235). -/
def State.drop (s : State) : State := { s with status := { s.status with ovr := true } }

/-- An invalid command word offered in `IDLE` is refused (R93): only `STATUS.OUTCOME` changes. -/
def State.refuse (s : State) : State := { s with status := { s.status with outcome := .cmdRefused } }

/-- Reset of the sequencer (R260, R261): the state of R33; the device, the window, the image, the record of events and
the host's inputs to come are not reset. -/
def State.resetSequencer (s : State) : State :=
  { s with
    phase := .idle
    status := Status.reset
    faultInfo := FaultInfo.reset
    operands := Operands.reset
    work := Working.empty
    port := HostPort.reset }

def State.setActive (b : Bool) (s : State) : State := { s with status := { s.status with active := b } }
def State.setRdata (b : Byte) (s : State) : State := { s with status := { s.status with rdata := b } }
def State.setN (v : Nat) (s : State) : State := { s with work := { s.work with n := some v } }
def State.setJ (v : Nat) (s : State) : State := { s with work := { s.work with j := some v } }
def State.setK (v : Nat) (s : State) : State := { s with work := { s.work with k := some v } }
def State.setPcCnt (v : Nat) (s : State) : State := { s with work := { s.work with pcCnt := some v } }
def State.setRd (v : Word) (s : State) : State := { s with work := { s.work with rd := some v } }
def State.setTup (v : Tuple) (s : State) : State := { s with work := { s.work with tup := some v } }
def State.setRes (v : CmdOutcome) (s : State) : State := { s with work := { s.work with res := some v } }
def State.setRb (v : ActWrite) (s : State) : State := { s with work := { s.work with rb := some v } }

/-- `count` free bytes are drawn. -/
def State.drawn (count : Nat) (s : State) : State := { s with draws := s.draws + count }

/-! ### Reads of working registers, and the window check -/

/-- The value of a working register, or the fault of R28 where the current command has not written it. -/
def need {α : Type} (r : WorkReg) (v : Option α) (k : α → StepResult) : StepResult :=
  match v with
  | some x => k x
  | none => .fault (.unwritten r)

/-- `if WIN_VALID = 0: raise Fault(WINDOW_UNMAPPED, opc)` before any transaction (R237). -/
def withWindow (opc : BitVec 4) (k : State → StepResult) (s : State) : StepResult :=
  if s.operands.winValid then k s else .next (s.raiseFault .windowUnmapped (opc.setWidth 32))

/-! ### Bus transactions -/

/-- One 32-bit transaction at window offset `a`. The bound is checked before it is issued (R69). The device then completes it
(`k` goes on with the value it shows, R62), answers it with an error (`BUS_ERROR`, R238), or leaves it: the sequencer stays
in its phase (R238), nothing recorded. `INFO` is 32 bits wide (log entry 10). -/
def transact (a : Nat) (k : Word → State → StepResult) (s : State) : StepResult :=
  if s.cfg.winSize < a + 4 then .next (s.raiseFault .outOfWindow (BitVec.ofNat 32 a))
  else match s.device.peek with
    | .done b0 b1 b2 b3 => k (beWord b0 b1 b2 b3) s.answered
    | .error => .next ((s.answered.record (.error a)).raiseFault .busError (BitVec.ofNat 32 a))
    | .silent => .next s

/-- `MemWrite(a, 4, v)` (R12, R62). -/
def memWrite (a : Nat) (v : Word) (k : State → StepResult) (s : State) : StepResult :=
  transact a (fun _ s' => k (s'.wrote a v)) s

/-- `rd <- MemRead(a, 4)` (R12, R62). -/
def memRead (a : Nat) (k : Word → State → StepResult) (s : State) : StepResult :=
  transact a (fun v s' => k v ((s'.record (.read a v)).setRd v)) s

/-- `Delay(t)` (R12): a wait of at least `t`, no transaction; the model measures no time (R271). -/
def delay (t : Nat) (k : State → StepResult) (s : State) : StepResult := k (s.record (.delay t))

/-- `CsrRead(off)` (R120): reads the slot, goes on with its low byte. -/
def csrRead (off : Nat) (k : Byte → State → StepResult) (s : State) : StepResult :=
  memRead (slot off) (fun v s' => k (csrByte v) s') s

/-- `CsrWrite(off, b)` (R121). -/
def csrWrite (off : Nat) (b : Byte) (k : State → StepResult) (s : State) : StepResult :=
  memWrite (slot off) (csrWord b) k s

end Sys2Proof.Machine
end

