-- ==== Sys2Proof/Machine/Activate.lean ====
section
/-! DEFINITION. ACTIVATE: core reset, settle, disable, bus width, vector, level, relocation, enable, with the optional
read-back (spec/43_activator.md R200 to R210). -/

namespace Sys2Proof.Machine

open Sys2Proof

/-- The offset each write of ACTIVATE goes to (R104, R206); `k` is the relocation index. -/
def actOff (c : Config) (k : Nat) : ActWrite → Nat
  | .rst => c.offBitset
  | .dis => c.offBitclr
  | .wb => c.offWbmode
  | .vec => c.offIntvec
  | .lvl => c.offIntlvl
  | .ader => aderOff c k
  | .en => c.offBitset

/-- The rest of the phase that issued the write `w`, after its read-back if there is one (R200). -/
def actRest (w : ActWrite) (s : State) : StepResult :=
  match w with
  | .rst => .next (s.goto .acWait)
  | .dis => .next (s.goto .acWb)
  | .wb => .next (s.goto .acVec)
  | .vec => .next (s.goto .acLvl)
  | .lvl => .next (((s.setTup (reloc s.cfg s.operands.cfgAddr)).setK 0).goto .acAder)
  | .ader => need .k s.work.k fun k =>
      if k + 1 < 4 then .next ((s.setK (k + 1)).goto .acAder) else .next ((s.setK (k + 1)).goto .acEn)
  | .en => .next (s.finish .success)

/-- One write of ACTIVATE: `CsrWrite(off, b); RB(off)` (R200, R208). With `P_READBACK` the read-back is the separate
phase `AC_RB`, which must know the write it follows; without it the phase goes on at once. -/
def actWrite (w : ActWrite) (off : Nat) (b : Byte) (s : State) : StepResult :=
  csrWrite off b (fun s => if s.cfg.readback then .next ((s.setRb w).goto .acRb) else actRest w s) s

/-- Phase `AC_RST` (R201). -/
def phaseAcRst (s : State) : StepResult :=
  withWindow 0x6#4 (fun s => actWrite .rst s.cfg.offBitset s.cfg.resetCore s) s

/-- Phase `AC_WAIT` (R201, R268): no transaction. -/
def phaseAcWait (s : State) : StepResult :=
  delay s.cfg.settle (fun s => .next (s.goto .acDis)) s

/-- Phase `AC_DIS` (R202). -/
def phaseAcDis (s : State) : StepResult := actWrite .dis s.cfg.offBitclr s.cfg.enableCore s

/-- Phase `AC_WB` (R203). -/
def phaseAcWb (s : State) : StepResult := actWrite .wb s.cfg.offWbmode s.cfg.wb32 s

/-- Phase `AC_VEC` (R204): the vector unchanged. -/
def phaseAcVec (s : State) : StepResult := actWrite .vec s.cfg.offIntvec s.operands.cfgVec s

/-- Phase `AC_LVL` (R204): the level unchanged. -/
def phaseAcLvl (s : State) : StepResult := actWrite .lvl s.cfg.offIntlvl s.operands.cfgLvl s

/-- Phase `AC_ADER` (R206): relocation byte `k`. No step reaches it with `k ≥ 4`; it would then go on to `AC_EN`. -/
def phaseAcAder (s : State) : StepResult :=
  need .k s.work.k fun k => need .tup s.work.tup fun tup =>
    if k < 4 then actWrite .ader (aderOff s.cfg k) (tup.get k) s else .next (s.goto .acEn)

/-- Phase `AC_EN` (R207). -/
def phaseAcEn (s : State) : StepResult := actWrite .en s.cfg.offBitset s.cfg.enableCore s

/-- Phase `AC_RB` (R208): `CsrRead` of the offset just written, its value discarded but for `rd`, then the rest of the
phase that invoked it. -/
def phaseAcRb (s : State) : StepResult :=
  need .rb s.work.rb fun w =>
    match w with
    | .ader => need .k s.work.k fun k => csrRead (actOff s.cfg k w) (fun _ s => actRest w s) s
    | .rst | .dis | .wb | .vec | .lvl | .en => csrRead (actOff s.cfg 0 w) (fun _ s => actRest w s) s

/-- ACTIVATE (R200): accepted in `IDLE`, latching `CFG_ADDR`, `CFG_VEC`, `CFG_LVL` (R92), its phases, dropped elsewhere
(R235). -/
def execActivate (s : State) : StepResult :=
  match s.phase with
  | .idle =>
    .next (s.accept .activate .acRst
      { s.operands with cfgAddr := s.port.cfgAddr, cfgVec := s.port.cfgVec, cfgLvl := s.port.cfgLvl })
  | .acRst => phaseAcRst s
  | .acWait => phaseAcWait s
  | .acDis => phaseAcDis s
  | .acWb => phaseAcWb s
  | .acVec => phaseAcVec s
  | .acLvl => phaseAcLvl s
  | .acAder => phaseAcAder s
  | .acEn => phaseAcEn s
  | .acRb => phaseAcRb s
  | _ => .next s.drop

end Sys2Proof.Machine
end

