-- ==== Sys2Proof/Machine/CsrAccessor.lean ====
section
/-! DEFINITION. CSR_READ and CSR_WRITE (spec/40_csr_accessor.md R120 to R125). -/

namespace Sys2Proof.Machine

open Sys2Proof

/-- Phase `CR_RD` (R123). -/
def phaseCrRd (s : State) : StepResult :=
  withWindow 0x1#4 (fun s => csrRead s.operands.argOff.toNat (fun b s => .next ((s.setRdata b).finish .success)) s) s

/-- CSR_READ (R123): accepted in `IDLE`, latching `ARG_OFF` (R90, R92); carried out in its own phase; a word offered in
any other phase is dropped (R235). -/
def execCsrRead (s : State) : StepResult :=
  match s.phase with
  | .idle => .next (s.accept .csrRead .crRd { s.operands with argOff := s.port.argOff })
  | .crRd => phaseCrRd s
  | _ => .next s.drop

/-- Phase `CW_WR` (R124). -/
def phaseCwWr (s : State) : StepResult :=
  withWindow 0x2#4 (fun s => csrWrite s.operands.argOff.toNat s.operands.argByte (fun s => .next (s.finish .success)) s) s

/-- CSR_WRITE (R124): accepted in `IDLE`, latching `ARG_OFF` and the word's byte as `ARG_BYTE` (R90); its own phase
writes `ARG_BYTE`; dropped in any other phase (R235). -/
def execCsrWrite (byte : Byte) (s : State) : StepResult :=
  match s.phase with
  | .idle =>
    .next (s.accept (.csrWrite byte) .cwWr { s.operands with argOff := s.port.argOff, argByte := byte })
  | .cwWr => phaseCwWr s
  | _ => .next s.drop

end Sys2Proof.Machine
end

