-- ==== Sys2Proof/Machine/Unlock.lean ====
section
/-! DEFINITION. The unlock sequence and the detection (spec/41_unlock_detect.md R140 to R146): UNLOCK and IS_ACTIVE. -/

namespace Sys2Proof.Machine

open Sys2Proof

/-- One turn of `UnlockSeq()` (R141), the phases `UL_TRIG` and `LD_TRIG`: write unlock word `j` to the trigger register,
`j <- j + 1`; after the eighth write `done` goes on in the same step. `j <- 0` is done by the step that enters the phase
(log entry 7). -/
def unlockTurn (done : State → StepResult) (s : State) : StepResult :=
  need .j s.work.j fun j =>
    if j < 8 then
      memWrite (ldrBtrigr s.cfg) (unlockWord j)
        (fun s => if j + 1 < 8 then .next (s.setJ (j + 1)) else done (s.setJ (j + 1))) s
    else done s

/-- `IsActive()` (R143): one identifier read, compared with `P_ID_WORD`. -/
def readActive (k : Bool → State → StepResult) (s : State) : StepResult :=
  memRead (ldrIdr s.cfg) (fun rd s => k (idMatches s.cfg rd) s) s

/-- Phase `UL_CHK` (R142). -/
def phaseUlChk (s : State) : StepResult :=
  if s.operands.winValid then .next ((s.setJ 0).goto .ulTrig) else .next (s.finish .unlockFailed)

/-- Phase `UL_TRIG` (R142). -/
def phaseUlTrig (s : State) : StepResult :=
  unlockTurn (fun s => .next (s.finish .success)) s

/-- UNLOCK (R142): accepted in `IDLE` (it reads `WIN_VALID` only), its phases, dropped elsewhere (R235). -/
def execUnlock (s : State) : StepResult :=
  match s.phase with
  | .idle => .next (s.accept .unlock .ulChk s.operands)
  | .ulChk => phaseUlChk s
  | .ulTrig => phaseUlTrig s
  | _ => .next s.drop

/-- Phase `IA_RD` (R144). -/
def phaseIaRd (s : State) : StepResult :=
  withWindow 0x4#4
    (readActive fun act s => .next ((s.setActive act).finish (if act then .success else .stillLocked))) s

/-- IS_ACTIVE (R144): accepted in `IDLE`, its phase, dropped elsewhere (R235). -/
def execIsActive (s : State) : StepResult :=
  match s.phase with
  | .idle => .next (s.accept .isActive .iaRd s.operands)
  | .iaRd => phaseIaRd s
  | _ => .next s.drop

end Sys2Proof.Machine
end

