-- ==== Sys2Proof/Machine/Load.lean ====
section
/-! DEFINITION. LOAD: checks, unlock and detection, session start, chunking under FIFO back-pressure, completion poll and
exit (spec/42_load_stream.md R160 to R178). One definition a phase, in the order of R160's pseudocode. -/

namespace Sys2Proof.Machine

open Sys2Proof

/-- `L`: the latched image length (R160). -/
def imageLen (s : State) : Nat := s.operands.imgLen.toNat

/-- Phase `LD_CHK` (R161): null or empty image first, then the window. -/
def phaseLdChk (s : State) : StepResult :=
  if s.operands.imgValid = false ∨ imageLen s = 0 then .next (s.finish .bitstreamRejected)
  else if s.operands.winValid then .next ((s.setJ 0).goto .ldTrig)
  else .next (s.finish .bitstreamRejected)

/-- Phase `LD_TRIG` (R162). -/
def phaseLdTrig (s : State) : StepResult :=
  unlockTurn (fun s => .next (s.goto .ldDet)) s

/-- Phase `LD_DET` (R162). -/
def phaseLdDet (s : State) : StepResult :=
  readActive (fun act s =>
    if act then .next ((s.setActive true).goto .ldSwrst) else .next ((s.setActive false).finish .stillLocked)) s

/-- Phase `LD_SWRST` (R163). -/
def phaseLdSwrst (s : State) : StepResult :=
  memWrite (ldrCsr s.cfg) (wSwrst s.cfg) (fun s => .next (s.goto .ldStart)) s

/-- Phase `LD_START` (R163). -/
def phaseLdStart (s : State) : StepResult :=
  memWrite (ldrCsr s.cfg) (wStart s.cfg) (fun s => .next (((s.setN 0).setPcCnt 0).goto .ldPollf)) s

/-- An unsatisfied poll (R173): `pc_cnt <- pc_cnt + 1`, and at the bound `res <- Timeout` and the exit phase; else the
poll is repeated. -/
def pollAgain (s : State) : StepResult :=
  need .pcCnt s.work.pcCnt fun cnt =>
    if limitReached s.cfg (cnt + 1) then .next (((s.setPcCnt (cnt + 1)).setRes .timeout).goto .ldExit)
    else .next (s.setPcCnt (cnt + 1))

/-- Phase `LD_POLLF` (R168, R169). -/
def phaseLdPollf (s : State) : StepResult :=
  need .n s.work.n fun n =>
    if imageLen s ≤ n then .next ((s.setPcCnt 0).goto .ldPolld)
    else memRead (ldrFifoCsr s.cfg)
      (fun rd s => if fifoIsFull s.cfg rd then pollAgain s else .next ((s.setPcCnt 0).goto .ldCtl)) s

/-- Phase `LD_CTL` (R165, R166). -/
def phaseLdCtl (s : State) : StepResult :=
  need .n s.work.n fun n =>
    memWrite (ldrFifoR0 s.cfg) (ctrlWord s.cfg (chunkLen (imageLen s) n) (lastFlag s.cfg (imageLen s) n))
      (fun s => .next (s.goto .ldData)) s

/-- Phase `LD_DATA` (R167). -/
def phaseLdData (s : State) : StepResult :=
  need .n s.work.n fun n =>
    memWrite (ldrFifoR1 s.cfg) (dataWord s.image (imageLen s) n s.draws)
      (fun s => .next (((s.drawn 4).setN (n + 4)).goto .ldPollf)) s

/-- Phase `LD_POLLD` (R170, R171). -/
def phaseLdPolld (s : State) : StepResult :=
  memRead (ldrCsr s.cfg)
    (fun rd s => if isDone s.cfg rd then .next ((s.setRes (sessionOutcome s.cfg rd)).goto .ldExit) else pollAgain s) s

/-- Phase `LD_EXIT` (R172). -/
def phaseLdExit (s : State) : StepResult :=
  memWrite (ldrCsr s.cfg) (wExit s.cfg) (fun s => need .res s.work.res fun res => .next (s.finish res)) s

/-- LOAD (R160): accepted in `IDLE`, latching `IMG_VALID` and `IMG_LEN` (R92), its phases, dropped elsewhere (R235). -/
def execLoad (s : State) : StepResult :=
  match s.phase with
  | .idle =>
    .next (s.accept .load .ldChk { s.operands with imgValid := s.port.imgValid, imgLen := s.port.imgLen })
  | .ldChk => phaseLdChk s
  | .ldTrig => phaseLdTrig s
  | .ldDet => phaseLdDet s
  | .ldSwrst => phaseLdSwrst s
  | .ldStart => phaseLdStart s
  | .ldPollf => phaseLdPollf s
  | .ldCtl => phaseLdCtl s
  | .ldData => phaseLdData s
  | .ldPolld => phaseLdPolld s
  | .ldExit => phaseLdExit s
  | _ => .next s.drop

end Sys2Proof.Machine
end

