-- ==== Sys2Proof/Machine/Dispatch.lean ====
section
/-! DEFINITION. One arm per command (spec/opcode_table.json). `exec i s` is one phase of command `i`: its acceptance in
`IDLE`, one step in a phase of its own, a drop in any other phase. -/

namespace Sys2Proof.Machine
open Sys2Proof

def exec (i : Instr) (s : State) : Host.Outcome State Fault Refusal :=
  match i with
  | .csrRead => Sys2Proof.Machine.execCsrRead s
  | .csrWrite byte => Sys2Proof.Machine.execCsrWrite byte s
  | .unlock => Sys2Proof.Machine.execUnlock s
  | .isActive => Sys2Proof.Machine.execIsActive s
  | .load => Sys2Proof.Machine.execLoad s
  | .activate => Sys2Proof.Machine.execActivate s

end Sys2Proof.Machine
end

