-- ==== Sys2Proof/Machine/Pending.lean ====
section
/-! DEFINITION. The transaction a phase is about to issue, one table for all of them, written from the pseudocode of R123,
R124, R141, R142, R144, R160 and R200: it says which transaction is under way when reset is applied (R260). -/

namespace Sys2Proof.Machine

open Sys2Proof

/-- One 32-bit access of the window: a read at an offset, or a write of a word there (R12). -/
inductive Access where
  | read (a : Nat)
  | write (a : Nat) (v : Word)
  deriving DecidableEq, Repr

/-- Its window offset. -/
def Access.addr : Access → Nat
  | .read a => a
  | .write a _ => a

/-- A CSR write of `b` at `off` (R121). -/
def Access.csrWrite (off : Nat) (b : Byte) : Access := .write (slot off) (csrWord b)

/-- A trigger write of `UnlockSeq` (R141); none once the eight are done. -/
def State.pendingTrigger (s : State) : Option Access :=
  match s.work.j with
  | some j => if j < 8 then some (.write (ldrBtrigr s.cfg) (unlockWord j)) else none
  | none => none

/-- The FIFO poll before the next chunk (R168); none once the image is pushed (R169). -/
def State.pendingPoll (s : State) : Option Access :=
  match s.work.n with
  | some n => if imageLen s ≤ n then none else some (.read (ldrFifoCsr s.cfg))
  | none => none

/-- The relocation write of byte `k` (R206). -/
def State.pendingAder (s : State) : Option Access :=
  match s.work.k, s.work.tup with
  | some k, some tup => if k < 4 then some (.csrWrite (aderOff s.cfg k) (tup.get k)) else none
  | _, _ => none

/-- The read-back of the write just done (R208). -/
def State.pendingReadBack (s : State) : Option Access :=
  match s.work.rb with
  | some .ader => s.work.k.map (fun k => .read (slot (aderOff s.cfg k)))
  | some w => some (.read (slot (actOff s.cfg 0 w)))
  | none => none

/-- The access of the current phase; none for a phase that issues none. -/
def State.pending (s : State) : Option Access :=
  match s.phase with
  | .idle | .fault | .ulChk | .ldChk | .acWait => none
  | .crRd => if s.operands.winValid then some (.read (slot s.operands.argOff.toNat)) else none
  | .cwWr => if s.operands.winValid then some (.csrWrite s.operands.argOff.toNat s.operands.argByte) else none
  | .ulTrig | .ldTrig => s.pendingTrigger
  | .iaRd => if s.operands.winValid then some (.read (ldrIdr s.cfg)) else none
  | .ldDet => some (.read (ldrIdr s.cfg))
  | .ldSwrst => some (.write (ldrCsr s.cfg) (wSwrst s.cfg))
  | .ldStart => some (.write (ldrCsr s.cfg) (wStart s.cfg))
  | .ldPollf => s.pendingPoll
  | .ldCtl => s.work.n.map (fun n => .write (ldrFifoR0 s.cfg)
      (ctrlWord s.cfg (chunkLen (imageLen s) n) (lastFlag s.cfg (imageLen s) n)))
  | .ldData => s.work.n.map (fun n => .write (ldrFifoR1 s.cfg) (dataWord s.image (imageLen s) n s.draws))
  | .ldPolld => some (.read (ldrCsr s.cfg))
  | .ldExit => some (.write (ldrCsr s.cfg) (wExit s.cfg))
  | .acRst => if s.operands.winValid then some (.csrWrite s.cfg.offBitset s.cfg.resetCore) else none
  | .acDis => some (.csrWrite s.cfg.offBitclr s.cfg.enableCore)
  | .acWb => some (.csrWrite s.cfg.offWbmode s.cfg.wb32)
  | .acVec => some (.csrWrite s.cfg.offIntvec s.operands.cfgVec)
  | .acLvl => some (.csrWrite s.cfg.offIntlvl s.operands.cfgLvl)
  | .acAder => s.pendingAder
  | .acEn => some (.csrWrite s.cfg.offBitset s.cfg.enableCore)
  | .acRb => s.pendingReadBack

/-- A transaction is under way: the phase issues one, inside the window (R69: one outside it is not issued). -/
def State.underWay (s : State) : Bool :=
  match s.pending with
  | some x => decide (x.addr + 4 ≤ s.cfg.winSize)
  | none => false

end Sys2Proof.Machine
end

