-- ==== Sys2Proof/Machine/HostInput.lean ====
section
/-! DEFINITION. One step of the sequencer by itself, and what each input of the host does (spec/30_encoding.md R90, R93;
spec/60_exceptions.md R235; spec/70_reset_and_hazards.md R260 to R265, R273). -/

namespace Sys2Proof.Machine

open Sys2Proof

/-- The command a phase belongs to (R22's table, second column). CSR_WRITE's byte is in `ARG_BYTE`. -/
def Phase.command (p : Phase) (argByte : Byte) : Option Instr :=
  match p with
  | .idle | .fault => none
  | .crRd => some .csrRead
  | .cwWr => some (.csrWrite argByte)
  | .ulChk | .ulTrig => some .unlock
  | .iaRd => some .isActive
  | .ldChk | .ldTrig | .ldDet | .ldSwrst | .ldStart | .ldPollf | .ldCtl | .ldData | .ldPolld | .ldExit => some .load
  | .acRst | .acWait | .acDis | .acWb | .acVec | .acLvl | .acAder | .acEn | .acRb => some .activate

/-- The command in progress; none in `IDLE` and in `FAULT`. -/
def State.current (s : State) : Option Instr := s.phase.command s.operands.argByte

/-- One step of the sequencer with no input: the command in progress takes its phase's step; in `IDLE` the sequencer waits
(R246) and in `FAULT` it has no step (R236), so nothing changes. -/
def advance (s : State) : StepResult :=
  match s.current with
  | some i => exec i s
  | none => .next s

/-- A command word is offered (R90, R93, R235). -/
def offerWord (cw : Word) (s : State) : StepResult :=
  if s.phase = .idle then
    match decode cw with
    | .ok i => exec i s
    | .error _ => .next s.refuse
  else .next s.drop

/-- The host writes one operand register (R90, R273): the host's side of it, which the next acceptance latches. -/
def HostPort.write (p : HostPort) : OperandWrite → HostPort
  | .argOff v => { p with argOff := v }
  | .imgValid v => { p with imgValid := v }
  | .imgLen v => { p with imgLen := v }
  | .cfgAddr v => { p with cfgAddr := v }
  | .cfgVec v => { p with cfgVec := v }
  | .cfgLvl v => { p with cfgLvl := v }

def State.writePort (w : OperandWrite) (s : State) : State := { s with port := s.port.write w }

/-- The window provider maps or unmaps the window. While a command runs it must leave it as it is (R265
`HOST_WINDOW_STABLE`); in `IDLE`, and in `FAULT`, where no transaction is issued, it may. -/
def setWindow (mapped : Bool) (s : State) : StepResult :=
  if s.current ≠ none ∧ mapped ≠ s.winMapped then .refused (.hostDuty .windowStable)
  else .next { s with winMapped := mapped }

/-- The image provider puts an image in place; not while LOAD runs (R78, R265 `HOST_IMAGE_STABLE`). -/
def setImage (bytes : List Byte) (s : State) : StepResult :=
  if s.current = some .load ∧ bytes ≠ s.image then .refused (.hostDuty .imageStable)
  else .next { s with image := bytes }

/-- The state with the transaction under way performed at the device (R260: it "either reaches the device or does not").
The sequencer's own registers are reset afterwards, so only the device's side of the step shows. The four free bytes a
hanging read may need are drawn after those of a data word (log entry 17). -/
def landTransaction (s : State) : State :=
  match advance { s with device := s.device.land (s.draws + 4) } with
  | .next t => { t with draws := s.draws + 8 }
  | .fault _ => s
  | .refused _ => s

/-- The reset input (R260, R261). With no transaction under way nothing but the sequencer's registers changes. With one,
the host's input says whether it still reaches the device. DESIGN CHOICE (log entry 17). -/
def applyReset (landed : Bool) (s : State) : State :=
  if s.underWay then
    if landed then (landTransaction s).resetSequencer
    else State.resetSequencer { s with device := s.device.abandon }
  else s.resetSequencer

/-- One input of the host, already taken from the list. `waitDone` is not among them: `stepInput` handles it. -/
def hostInput (e : HostInput) (s : State) : StepResult :=
  match e with
  | .tick => advance s
  | .offer cw => offerWord cw s
  | .write w => .next (s.writePort w)
  | .setWindow mapped => setWindow mapped s
  | .setImage bytes => setImage bytes s
  | .reset landed => .next (applyReset landed s)
  | .waitDone => .next s
  | .skipUnlessSuccess count =>
    .next (if s.status.outcome = .success then s else { s with inputs := s.inputs.drop count })

/-- One step: the host's next input, if there is one; `wait` stays at the head, and the sequencer goes on, while
`STATUS.BUSY = 1` (R105). With no input left the sequencer goes on by itself. -/
def stepInput (s : State) : StepResult :=
  match s.inputs with
  | [] => advance s
  | e :: rest =>
    if e = .waitDone ∧ s.status.busy = true then advance s
    else hostInput e { s with inputs := rest }

/-- The state in which a command word can be accepted: `s` itself in `IDLE`, else `s` after a reset. -/
def State.ready (s : State) : State := if s.phase = .idle then s else s.resetSequencer

end Sys2Proof.Machine
end

