-- ==== Sys2Proof/Machine/Step.lean ====
section
/-! DEFINITION. The step of the machine, and where it takes its next command word from. -/

namespace Sys2Proof.Machine

open Sys2Proof

/-- One step. A configuration that breaks R8 or R9 is refused before any step (R9, R68, U21). -/
def step (s : State) : Host.Outcome State Fault Refusal :=
  match s.cfg.firstBroken with
  | some c => .refused (.configuration c)
  | none => stepInput s

/-- The sequencer fetches no instruction (R70): a command word reaches it when the host offers it in `IDLE` (R90).
The table's word `w` is put at the head of the host's inputs, on a sequencer that can accept it (log entry 12). -/
def State.withFetchWord (s : State) (nbits w : Nat) : State :=
  { s.ready with inputs := .offer (BitVec.ofNat 32 (w % 2 ^ nbits)) :: s.ready.inputs }

end Sys2Proof.Machine
end

