-- ==== Sys2Proof/Machine/Assembler.lean ====
section
/-! DEFINITION. Command programs: the assembler's lines read from text, their expansions, and the host inputs they stand
for (spec/30_encoding.md R105, R106; spec/70_reset_and_hazards.md R264). -/

namespace Sys2Proof.Machine

open Sys2Proof

/-! ### Lines from text -/

/-- A line read: nothing on it, a line of R105 or R106, or neither. -/
inductive ParsedLine where
  | blank
  | line (l : AsmLine)
  | bad
  deriving DecidableEq, Repr

def isSpace (c : Char) : Bool := c == ' ' || c == '\t'

/-- `;` starts a comment (R105). -/
def dropComment (cs : List Char) : List Char := cs.takeWhile (fun c => c != ';')

def trim (cs : List Char) : List Char := ((cs.dropWhile isSpace).reverse.dropWhile isSpace).reverse

/-- The value of a hexadecimal digit. -/
def digitValue (c : Char) : Option Nat :=
  if '0' ≤ c ∧ c ≤ '9' then some (c.toNat - '0'.toNat)
  else if 'a' ≤ c ∧ c ≤ 'f' then some (c.toNat - 'a'.toNat + 10)
  else if 'A' ≤ c ∧ c ≤ 'F' then some (c.toNat - 'A'.toNat + 10)
  else none

/-- The number the digits `cs` write in base `base`, after `acc`. -/
def digits (base : Nat) (acc : Nat) (cs : List Char) : Option Nat :=
  match cs with
  | [] => some acc
  | c :: rest => match digitValue c with
    | some d => if d < base then digits base (acc * base + d) rest else none
    | none => none

/-- "numbers are decimal or `0x` hexadecimal" (R105). -/
def readNumber (cs : List Char) : Option Nat :=
  match cs with
  | [] => none
  | ['0', 'x'] => none
  | '0' :: 'x' :: rest => digits 16 0 rest
  | c :: rest => digits 10 0 (c :: rest)

/-- The pieces between commas. -/
def splitCommas (cs : List Char) : List (List Char) :=
  match cs with
  | [] => [[]]
  | c :: rest =>
    match splitCommas rest with
    | [] => [[c]]
    | p :: ps => if c = ',' then [] :: p :: ps else (c :: p) :: ps

/-- Every piece as a number, or nothing. -/
def readNumbers (ps : List (List Char)) : Option (List Nat) :=
  match ps with
  | [] => some []
  | p :: rest => match readNumber (trim p), readNumbers rest with
    | some n, some ns => some (n :: ns)
    | _, _ => none

/-- A mnemonic or directive with its numbers (R105, R106). -/
def lineOfNumbers (word : List Char) (ns : List Nat) : ParsedLine :=
  match String.ofList word, ns with
  | "csr.rd", [off] => .line (.csrRd off)
  | "csr.wr", [off, byte] => .line (.csrWr off byte)
  | ".config", [addr, vec, lvl] => .line (.config addr vec lvl)
  | ".image", n :: ns => .line (.image (n :: ns))
  | ".word", [cw] => .line (.word cw)
  | "csr.set", [bits] => .line (.csrSet bits)
  | "csr.clr", [bits] => .line (.csrClr bits)
  | _, _ => .bad

/-- A mnemonic or directive with no number, `arg` being the text after it (R105, R106). -/
def lineOfWords (word arg : List Char) : ParsedLine :=
  match String.ofList word, String.ofList arg with
  | "unlock", "" => .line .unlock
  | "isactive", "" => .line .isactive
  | "load", "" => .line .load
  | "activate", "" => .line .activate
  | "wait", "" => .line .wait
  | "probe", "" => .line .probe
  | "configure", "" => .line .configure
  | ".window", "mapped" => .line (.window true)
  | ".window", "unmapped" => .line (.window false)
  | ".image", "null" => .line .imageNull
  | ".image", "empty" => .line .imageEmpty
  | _, _ => match readNumbers (splitCommas arg) with
    | some ns => lineOfNumbers word ns
    | none => .bad

/-- One line of text (R105: one command per line). -/
def readLine (text : String) : ParsedLine :=
  match trim (dropComment text.toList) with
  | [] => .blank
  | c :: cs =>
    lineOfWords ((c :: cs).takeWhile (fun d => !isSpace d)) (trim ((c :: cs).dropWhile (fun d => !isSpace d)))

/-! ### Lines to host inputs -/

/-- Offer the command word of `i`. -/
def offerInstr (i : Instr) : HostInput := .offer (encode i)

/-- What the host does for one line that fits (`AsmLine.wf`; R105, R106): every number then fits the operand it is written
to and is not wrapped, the offsets of `csr.set` and `csr.clr` too, which is the model's choice (log entry 24). `configure`
offers ACTIVATE, and waits for it, only after a LOAD with `Success`. -/
def AsmLine.inputs (c : Config) : AsmLine → List HostInput
  | .window mapped => [.setWindow mapped]
  | .image bytes =>
    [.setImage (bytes.map (BitVec.ofNat 8)), .write (.imgValid true), .write (.imgLen (BitVec.ofNat 32 bytes.length))]
  | .imageNull => [.write (.imgValid false), .write (.imgLen 0#32)]
  | .imageEmpty => [.write (.imgValid true), .write (.imgLen 0#32)]
  | .config addr vec lvl =>
    [.write (.cfgAddr (BitVec.ofNat 32 addr)), .write (.cfgVec (BitVec.ofNat 8 vec)),
      .write (.cfgLvl (BitVec.ofNat 8 lvl))]
  | .csrRd off => [.write (.argOff (BitVec.ofNat 32 off)), offerInstr .csrRead]
  | .csrWr off byte => [.write (.argOff (BitVec.ofNat 32 off)), offerInstr (.csrWrite (BitVec.ofNat 8 byte))]
  | .unlock => [offerInstr .unlock]
  | .isactive => [offerInstr .isActive]
  | .load => [offerInstr .load]
  | .activate => [offerInstr .activate]
  | .wait => [.waitDone]
  | .word cw => [.offer (BitVec.ofNat 32 cw)]
  | .probe => [offerInstr .unlock, .waitDone, offerInstr .isActive, .waitDone]
  | .csrSet bits =>
    [.write (.argOff (BitVec.ofNat 32 c.offBitset)), offerInstr (.csrWrite (BitVec.ofNat 8 bits)), .waitDone]
  | .csrClr bits =>
    [.write (.argOff (BitVec.ofNat 32 c.offBitclr)), offerInstr (.csrWrite (BitVec.ofNat 8 bits)), .waitDone]
  | .configure =>
    [offerInstr .load, .waitDone, .skipUnlessSuccess 2, offerInstr .activate, .waitDone]

/-- The inputs of the lines, the sequencer taking `pace`'s next number of steps by itself after each line. R105 does not say
how far it runs between two lines with no `wait` between them, so the pace is an argument, and 0 steps where it ends.
DESIGN CHOICE (log entry 26). -/
def lineInputs (c : Config) (pace : List Nat) (lines : List AsmLine) : List HostInput :=
  match lines with
  | [] => []
  | l :: rest => AsmLine.inputs c l ++ List.replicate (pace.head?.getD 0) .tick ++ lineInputs c pace.tail rest

/-- A program as the host inputs it stands for, at a pace (log entry 26); nothing if a line does not fit its operands. -/
def assemble (c : Config) (pace : List Nat) (lines : List AsmLine) : Option (List HostInput) :=
  if lines.all (AsmLine.wf c) then some (lineInputs c pace lines) else none

/-- A program's text, line by line; nothing if a line cannot be read or does not fit. -/
def readProgram (text : List String) : Option (List AsmLine) :=
  match text with
  | [] => some []
  | t :: rest => match readLine t, readProgram rest with
    | .blank, some ls => some ls
    | .line l, some ls => some (l :: ls)
    | _, _ => none

end Sys2Proof.Machine
end

