-- ==== Sys2Proof/Safety.lean ====
section
/-! DEFINITION. The terms the claims are stated in: runs, the invariant of the sequencer, the ended command (R272), the
device premises (R265), the successors of a phase (R30), the pending transaction of a phase, and the traces of whole
commands (R141, R176, R200), each written from the spec and not from the machine. -/

namespace Sys2Proof

/-- The device completes a read with value `v`. -/
def Response.ofWord (v : Word) : Response := .done (Machine.beByte v 0) (Machine.beByte v 1) (Machine.beByte v 2) (Machine.beByte v 3)

/-- The device completes a transaction (with whatever bytes it shows). -/
def Response.completes (r : Response) : Prop := ∃ b0 b1 b2 b3, r = .done b0 b1 b2 b3

/-- "one bit set" (R8, R9). -/
def isSingleBit {w : Nat} (v : BitVec w) : Prop := ∃ i, i < w ∧ v = BitVec.twoPow w i

/-- The domains of R8's table and the constraints (1) to (6) of R9, written out. -/
structure Config.AsSpecified (c : Config) : Prop where
  winSize : c.winSize % 4 = 0
  ldrBase : c.ldrBase % 4 = 0
  settle : 0 < c.settle
  pollLimit : c.pollLimit = none ∨ ∃ m, c.pollLimit = some m ∧ 1 ≤ m
  fifoFull : isSingleBit c.fifoFull
  resetCore : isSingleBit c.resetCore
  enableCore : isSingleBit c.enableCore
  aligned : c.offCsr % 4 = 0 ∧ c.offBtrigr % 4 = 0 ∧ c.offIdr % 4 = 0 ∧ c.offFifoCsr % 4 = 0 ∧ c.offFifoR0 % 4 = 0 ∧
    c.offFifoR1 % 4 = 0
  distinct : [c.offCsr, c.offBtrigr, c.offIdr, c.offFifoCsr, c.offFifoR0, c.offFifoR1].Pairwise (· ≠ ·)
  loaderFits : ∀ o ∈ [c.offCsr, c.offBtrigr, c.offIdr, c.offFifoCsr, c.offFifoR0, c.offFifoR1],
    c.ldrBase + o + 4 ≤ c.winSize
  commandFlags : isSingleBit c.csrSwrst ∧ isSingleBit c.csrStart ∧ isSingleBit c.csrMsbf ∧ isSingleBit c.csrExit
  commandDistinct : [c.csrSwrst, c.csrStart, c.csrMsbf, c.csrExit].Pairwise (· ≠ ·)
  statusFlags : isSingleBit c.csrDone ∧ isSingleBit c.csrError ∧ c.csrDone ≠ c.csrError
  xlast : ∃ i, 2 ≤ i ∧ i < 32 ∧ c.xlast = BitVec.twoPow 32 i
  csrFits : ∀ o ∈ [c.offBitset, c.offBitclr, c.offWbmode, c.offIntvec, c.offIntlvl, c.offAder0, c.offAder0 + 4,
    c.offAder0 + 8, c.offAder0 + 12], o / 4 * 4 + 4 ≤ c.winSize
  am : c.am.toNat < 64

end Sys2Proof

namespace Sys2Proof.Machine

open Sys2Proof

/-- `k` steps of the machine. -/
def run (k : Nat) (s : State) : StepResult := Host.Core.run Sys2Proof.core k s

/-- `t` is reached from `s`. -/
def State.reaches (s t : State) : Prop := ∃ k, run k s = .next t

/-! ### The end of a command and of a program (R272) -/

/-- What the host sees of an ended command: "`STATUS.BUSY = 0` and `STATUS.OUTCOME ≠ None`" in `IDLE` (R272). Alone it does
not say that a command was accepted: `State.commandEnds` does. -/
def State.ended (s : State) : Prop :=
  s.phase = .idle ∧ s.status.busy = false ∧ s.status.outcome ≠ .none

/-- The next step accepts command `i` (R90). -/
def State.accepts (s : State) (i : Instr) : Prop :=
  s.cfg.wf = true ∧ s.phase = .idle ∧ ∃ cw rest, s.inputs = .offer cw :: rest ∧ decode cw = .ok i

/-- "A command has ended when `phase = IDLE` after its acceptance" (R272): the command in progress in `s` (just accepted, or
further on) has ended in `t`, `k` steps on, the first state in which the sequencer is in `IDLE` again. A reset abandons the
command (R260) and leaves `OUTCOME = None`, so it ends none. DEDUCED (log entry 28). -/
def State.commandEnds (s : State) (k : Nat) (t : State) : Prop :=
  s.phase ≠ .idle ∧ run k s = .next t ∧ t.ended ∧ ∀ m u, m < k → run m s = .next u → u.phase ≠ .idle

/-- "A run of a command program has ended when every command has ended" (R272): after `k` steps the host's inputs are used
up, the sequencer is in `IDLE`, and every command accepted on the way has ended. DEDUCED (log entry 28). -/
def State.programEnded (s : State) (k : Nat) : Prop :=
  (∃ t, run k s = .next t ∧ t.inputs = [] ∧ t.phase = .idle) ∧
  ∀ m u i v, m < k → run m s = .next u → u.accepts i → step u = .next v → ∃ j t, m + 1 + j ≤ k ∧ v.commandEnds j t

/-! ### Acceptance, as R90 and R92 give it -/

/-- A command's first phase (R90). -/
def firstPhase : Instr → Phase
  | .csrRead => .crRd
  | .csrWrite _ => .cwWr
  | .unlock => .ulChk
  | .isActive => .iaRd
  | .load => .ldChk
  | .activate => .acRst

/-- The operand registers after acceptance: `OPC`, `WIN_VALID` and the operands R92 lists for the command. -/
def latchedOperands (i : Instr) (s : State) : Operands :=
  match i with
  | .csrRead => { s.operands with opc := 0x1#4, winValid := s.winMapped, argOff := s.port.argOff }
  | .csrWrite b =>
    { s.operands with opc := 0x2#4, winValid := s.winMapped, argOff := s.port.argOff, argByte := b }
  | .unlock => { s.operands with opc := 0x3#4, winValid := s.winMapped }
  | .isActive => { s.operands with opc := 0x4#4, winValid := s.winMapped }
  | .load =>
    { s.operands with
      opc := 0x5#4, winValid := s.winMapped, imgValid := s.port.imgValid, imgLen := s.port.imgLen }
  | .activate =>
    { s.operands with
      opc := 0x6#4, winValid := s.winMapped, cfgAddr := s.port.cfgAddr, cfgVec := s.port.cfgVec
      cfgLvl := s.port.cfgLvl }

/-! ### The invariant -/

/-- The phases a command reaches only with a mapped window (R142, R161, R237). -/
def Phase.needsWindow : Phase → Bool
  | .ulTrig | .ldTrig | .ldDet | .ldSwrst | .ldStart | .ldPollf | .ldCtl | .ldData | .ldPolld | .ldExit
  | .acWait | .acDis | .acWb | .acVec | .acLvl | .acAder | .acEn | .acRb => true
  | .idle | .fault | .crRd | .cwWr | .ulChk | .iaRd | .ldChk | .acRst => false

/-- The phases LOAD reaches only with an image of at least one byte (R161). -/
def Phase.needsImage : Phase → Bool
  | .ldTrig | .ldDet | .ldSwrst | .ldStart | .ldPollf | .ldCtl | .ldData | .ldPolld | .ldExit => true
  | .idle | .fault | .crRd | .cwWr | .ulChk | .ulTrig | .iaRd | .ldChk | .acRst | .acWait | .acDis | .acWb | .acVec
  | .acLvl | .acAder | .acEn | .acRb => false

/-- The phases of a session: LOAD after a detection that matched (R140 `Active`, `Streaming`, `Done`). -/
def Phase.inSession : Phase → Bool
  | .ldSwrst | .ldStart | .ldPollf | .ldCtl | .ldData | .ldPolld | .ldExit => true
  | .idle | .fault | .crRd | .cwWr | .ulChk | .ulTrig | .iaRd | .ldChk | .ldTrig | .ldDet | .acRst | .acWait | .acDis
  | .acWb | .acVec | .acLvl | .acAder | .acEn | .acRb => false

/-- The poll counter is written and below the bound, if there is one (R173). -/
def State.pollCounted (s : State) : Prop :=
  ∃ cnt, s.work.pcCnt = some cnt ∧ ∀ m, s.cfg.pollLimit = some m → cnt < m

/-- The relocation index and tuple are written, and the tuple is that of `CFG_ADDR` (R205, R206). -/
def State.relocating (s : State) : Prop :=
  ∃ k, s.work.k = some k ∧ k < 4 ∧ s.work.tup = some (reloc s.cfg s.operands.cfgAddr)

/-- The working registers each phase reads are written, and in their range (R24, R28, R164, R169). -/
def State.workOk (s : State) : Prop :=
  match s.phase with
  | .ulTrig | .ldTrig => ∃ j, s.work.j = some j ∧ j < 8
  | .ldPollf => (∃ n, s.work.n = some n ∧ n % 4 = 0 ∧ n < imageLen s + 4) ∧ s.pollCounted
  | .ldCtl | .ldData => (∃ n, s.work.n = some n ∧ n % 4 = 0 ∧ n < imageLen s) ∧ s.work.pcCnt = some 0
  | .ldPolld => (∃ n, s.work.n = some n ∧ n % 4 = 0 ∧ imageLen s ≤ n ∧ n < imageLen s + 4) ∧ s.pollCounted
  | .ldExit => ∃ r, s.work.res = some r ∧
      (r = .success ∨ r = .bitstreamRejected ∨ (r = .timeout ∧ s.cfg.pollLimit ≠ none))
  | .acAder => s.relocating
  | .acRb => s.cfg.readback = true ∧ ∃ w, s.work.rb = some w ∧ (w = .ader → s.relocating)
  | .idle | .fault | .crRd | .cwWr | .ulChk | .iaRd | .ldChk | .ldDet | .ldSwrst | .ldStart
  | .acRst | .acWait | .acDis | .acWb | .acVec | .acLvl | .acEn => True

/-- The invariant of the sequencer: it holds after reset and every step keeps it. -/
structure State.Inv (s : State) : Prop where
  /-- `BUSY` says that a command is in progress, a faulted one included (R25, R236) -/
  busy : s.status.busy = true ↔ s.phase ≠ .idle
  /-- `FAULT` says that the sequencer is in `FAULT` (R25) -/
  fault : s.status.fault = true ↔ s.phase = .fault
  /-- a cause is recorded in `FAULT` and nowhere else (R32) -/
  cause : s.faultInfo.cause ≠ .none ↔ s.phase = .fault
  /-- outside `FAULT`, `INFO` is 0 (R32, R33) -/
  info : s.phase ≠ .fault → s.faultInfo.info = 0#32
  /-- while a command is in progress `OUTCOME` is `None` (R90) -/
  outcome : s.status.busy = true → s.status.outcome = .none
  /-- `OPC` is the opcode of the command in progress (R23) -/
  opcode : ∀ i, s.current = some i → s.operands.opc = i.opcode
  /-- `WIN_VALID = 1` past the window check (R142, R161, R237) -/
  mapped : s.phase.needsWindow = true → s.operands.winValid = true
  /-- the image is there past LOAD's image check (R161) -/
  image : s.phase.needsImage = true → s.operands.imgValid = true ∧ 0 < imageLen s
  /-- `ACTIVE = 1` past a detection that matched (R162, R231) -/
  active : s.phase.inSession = true → s.status.active = true
  /-- the working registers the phase reads (R28) -/
  work : s.workOk
  /-- the window's bytes keep their canonical form -/
  window : s.window.wf = true

/-! ### Control transfer and transactions, as the spec's tables give them -/

/-- The phases a step can lead to (R30 and the pseudocode of R123, R124, R142, R144, R160, R200); a phase that waits or
polls stays. -/
def Phase.successors : Phase → List Phase
  | .idle => [.crRd, .cwWr, .ulChk, .iaRd, .ldChk, .acRst]
  | .fault => []
  | .crRd | .cwWr | .iaRd => [.idle, .fault]
  | .ulChk => [.ulTrig, .idle]
  | .ulTrig => [.idle, .fault]
  | .ldChk => [.ldTrig, .idle]
  | .ldTrig => [.ldDet, .fault]
  | .ldDet => [.ldSwrst, .idle, .fault]
  | .ldSwrst => [.ldStart, .fault]
  | .ldStart => [.ldPollf, .fault]
  | .ldPollf => [.ldCtl, .ldPolld, .ldExit, .fault]
  | .ldCtl => [.ldData, .fault]
  | .ldData => [.ldPollf, .fault]
  | .ldPolld => [.ldExit, .fault]
  | .ldExit => [.idle, .fault]
  | .acRst => [.acWait, .acRb, .fault]
  | .acWait => [.acDis]
  | .acDis => [.acWb, .acRb, .fault]
  | .acWb => [.acVec, .acRb, .fault]
  | .acVec => [.acLvl, .acRb, .fault]
  | .acLvl => [.acAder, .acRb, .fault]
  | .acAder => [.acEn, .acRb, .fault]
  | .acEn => [.idle, .acRb, .fault]
  | .acRb => [.acWait, .acWb, .acVec, .acLvl, .acAder, .acEn, .idle, .fault]

/-- The window offset of the transaction the phase is about to issue; none for a phase that issues none. -/
def State.pendingAddr (s : State) : Option Nat := s.pending.map Access.addr

/-- The word that transaction writes; none for a read and for a phase that issues none. -/
def State.pendingWord (s : State) : Option Word :=
  match s.pending with
  | some (.write _ v) => some v
  | some (.read _) | none => none

/-- An event lies on the window of configuration `c`: 32 bits at a multiple of 4, inside it (R66, R68, R69). -/
def BusEvent.onWindow (c : Config) : BusEvent → Prop
  | .read a _ | .write a _ | .error a => a % 4 = 0 ∧ a + 4 ≤ c.winSize
  | .delay _ => True

/-- Whether an event is a write. -/
def BusEvent.isWrite : BusEvent → Bool
  | .write _ _ => true
  | .read _ _ | .error _ | .delay _ => false

/-! ### The device's answers -/

/-- The device's answers are the ones these events need, in their order: each read answered with its value, each write
completed. -/
def Device.gives (d : Device) (es : List BusEvent) : Prop :=
  match es with
  | [] => True
  | .read _ v :: rest => d.peek = Response.ofWord v ∧ Device.gives d.pop rest
  | .write _ _ :: rest => d.peek.completes ∧ Device.gives d.pop rest
  | .error _ :: rest => d.peek = .error ∧ Device.gives d.pop rest
  | .delay _ :: rest => Device.gives d rest

/-- After `k` answers are taken. -/
def Device.later (d : Device) (k : Nat) : Device :=
  match k with
  | 0 => d
  | k + 1 => Device.later d.pop k

/-- The value of the `k`-th answer to come, 0 where that answer completes no read. -/
def Device.value (d : Device) (k : Nat) : Word :=
  match (d.later k).peek with
  | .done b0 b1 b2 b3 => beWord b0 b1 b2 b3
  | .error | .silent => 0#32

/-! ### The traces of whole commands, the oldest event first -/

/-- The eight trigger writes (R141, R97), their words written out. -/
def unlockTrace (c : Config) : List BusEvent :=
  [0x000000DE#32, 0x000000AD#32, 0x000000BE#32, 0x000000EF#32, 0x000000CA#32, 0x000000FE#32, 0x000000BA#32,
    0x000000BE#32].map (fun v => .write (c.ldrBase + c.offBtrigr) v)

/-! ### The device premises of R265, each about the transactions a run issues and no others -/

/-- `DEV_NO_BUS_ERROR`: no transaction of the run from `s` is answered with an error or left incomplete. -/
def State.noBusError (s : State) : Prop := ∀ t, s.reaches t → t.underWay = true → t.device.peek.completes

/-- `DEV_FIFO_DRAINS`: wherever the run from `s` is about to read the FIFO status, one of the reads it makes by polling on has
`P_FIFO_FULL` clear. The polls of one wait take consecutive answers, for no other transaction comes between (R168). -/
def State.fifoDrains (s : State) : Prop :=
  ∀ t, s.reaches t → t.phase = .ldPollf → t.underWay = true → ∃ m, fifoIsFull t.cfg (t.device.value m) = false

/-- `DEV_DONE_EVENTUALLY`: wherever the run from `s` is in the completion poll, one of the reads it makes by polling on has
`P_CSR_DONE` set. -/
def State.doneEventually (s : State) : Prop :=
  ∀ t, s.reaches t → t.phase = .ldPolld → ∃ m, isDone t.cfg (t.device.value m) = true

/-- `DEV_UNLOCK_IDEM`, on a record of events, the latest first: an identifier read right after the eight unlock writes, before
which an identifier read had found the loader active, finds it active. The loader's state shows in identifier reads only
(R140, R143). DEDUCED (log entry 27). -/
def unlockIdem (c : Config) (trace : List BusEvent) : Prop :=
  ∀ v older later,
    trace = later ++ .read (ldrIdr c) v :: ((unlockTrace c).reverse ++ .read (ldrIdr c) c.idWord :: older) → v = c.idWord

/-- The number of chunks `C = ceil(L / 4)` (R164). -/
def chunkCount (len : Nat) : Nat := (len + 3) / 4

/-- The last flag of chunk `i` as R166 words it. -/
def chunkIsLast (c : Config) (len i : Nat) : Bool :=
  if c.lastOnFull then decide (i + 1 = chunkCount len) else decide (len - 4 * i < 4)

/-- The FIFO polls and the two writes of chunk `i` (R168, R165, R167): `full` are the values of its unsatisfied polls and
`room` that of the satisfied one. -/
def chunkTrace (c : Config) (image : List Byte) (len d i : Nat) (full : List Word) (room : Word) : List BusEvent :=
  full.map (.read (c.ldrBase + c.offFifoCsr)) ++
    [.read (c.ldrBase + c.offFifoCsr) room,
      .write (c.ldrBase + c.offFifoR0) (ctrlWord c (min 4 (len - 4 * i)) (chunkIsLast c len i)),
      .write (c.ldrBase + c.offFifoR1) (dataWord image len (4 * i) (d + 4 * i))]

/-- Chunks `i`, `i + 1`, ... with their polls. -/
def chunksTrace (c : Config) (image : List Byte) (len d i : Nat) (polls : List (List Word × Word)) : List BusEvent :=
  match polls with
  | [] => []
  | p :: rest => chunkTrace c image len d i p.1 p.2 ++ chunksTrace c image len d (i + 1) rest

/-- The trace of a LOAD that ends by a done read (R176): `polls` gives each chunk's FIFO status values, `waits` the
completion reads with DONE clear, `last` the one with DONE set; `d` counts the free bytes drawn before it. -/
def loadTrace (c : Config) (image : List Byte) (len d : Nat) (polls : List (List Word × Word)) (waits : List Word)
    (last : Word) : List BusEvent :=
  unlockTrace c ++
    [.read (c.ldrBase + c.offIdr) c.idWord, .write (c.ldrBase + c.offCsr) c.csrSwrst,
      .write (c.ldrBase + c.offCsr) (c.csrStart ||| c.csrMsbf)] ++
    chunksTrace c image len d 0 polls ++
    waits.map (.read (c.ldrBase + c.offCsr)) ++
    [.read (c.ldrBase + c.offCsr) last, .write (c.ldrBase + c.offCsr) c.csrExit]

/-- One write of ACTIVATE and its read-back, if there is one (R200, R208). -/
def actEvents (c : Config) (off : Nat) (b : Byte) (seen : Word) : List BusEvent :=
  .write (off - off % 4) (b.setWidth 32) :: (if c.readback then [.read (off - off % 4) seen] else [])

/-- The trace of ACTIVATE (R200, R209): ten writes and one delay; `seen k` is what the read-back of write `k` sees. -/
def activateTrace (c : Config) (addr : Word) (vec lvl : Byte) (seen : Nat → Word) : List BusEvent :=
  actEvents c c.offBitset c.resetCore (seen 0) ++ [.delay c.settle] ++
    actEvents c c.offBitclr c.enableCore (seen 1) ++
    actEvents c c.offWbmode c.wb32 (seen 2) ++
    actEvents c c.offIntvec vec (seen 3) ++
    actEvents c c.offIntlvl lvl (seen 4) ++
    actEvents c c.offAder0 (addr.extractLsb' 24 8) (seen 5) ++
    actEvents c (c.offAder0 + 4) (addr.extractLsb' 16 8) (seen 6) ++
    actEvents c (c.offAder0 + 8) (addr.extractLsb' 8 8) (seen 7) ++
    actEvents c (c.offAder0 + 12) (c.am <<< 2) (seen 8) ++
    actEvents c c.offBitset c.enableCore (seen 9)

end Sys2Proof.Machine
end

