-- ==== Sys2Proof/Certificates/Slice0/Obligations.lean ====
section
/-! DEFINITION. The statements for the provers, each from a rule of the spec. Statements about commands hold for every
configuration a machine is built for, every answer of the device and every value of the free values. -/

open Sys2Proof Sys2Proof.Machine

/-! ### Encoding -/

/-- Command words written out from R91 and R92, and refused words (R93; vectors T1 to T9). -/
def Obligations.CommandWordExamples : Prop :=
  decode 0x00000001#32 = .ok .csrRead ∧ decode 0x00000802#32 = .ok (.csrWrite 0x80#8) ∧
  decode 0x00000FF2#32 = .ok (.csrWrite 0xFF#8) ∧ decode 0x00000003#32 = .ok .unlock ∧
  decode 0x00000004#32 = .ok .isActive ∧ decode 0x00000005#32 = .ok .load ∧
  decode 0x00000006#32 = .ok .activate ∧
  decode 0x00000000#32 = .error .reservedOpcode ∧ decode 0x00000007#32 = .error .reservedOpcode ∧
  decode 0x0000000F#32 = .error .reservedOpcode ∧ decode 0x00000013#32 = .error .byteNotZero ∧
  decode 0x00001001#32 = .error .reservedBits ∧ decode 0x80000002#32 = .error .reservedBits

/-- Decoding and encoding agree, both ways: a word decodes to a command exactly when it is that command's encoding
(R91, R92, R94). -/
def Obligations.DecodeExactlyTheEncoding : Prop :=
  ∀ (cw : Word) (i : Instr), decode cw = .ok i ↔ cw = encode i

/-- R93 whole: which words are valid, and that an invalid one offered in `IDLE` changes `STATUS.OUTCOME` and nothing
else. -/
def Obligations.InvalidWordRefused : Prop :=
  (∀ cw : Word, (∃ i, decode cw = .ok i) ↔
    1 ≤ (cw.extractLsb' 0 4).toNat ∧ (cw.extractLsb' 0 4).toNat ≤ 6 ∧ cw.extractLsb' 12 20 = 0#20 ∧
      (cw.extractLsb' 4 8 = 0#8 ∨ cw.extractLsb' 0 4 = 2#4)) ∧
  ∀ (s : State) (cw : Word) (rest : List HostInput),
    s.cfg.wf = true → s.phase = .idle → s.inputs = .offer cw :: rest → (¬ ∃ i, decode cw = .ok i) →
    step s = .next { s with inputs := rest, status := { s.status with outcome := .cmdRefused } }

/-- The `STATUS` word, bit by bit (R95). -/
def Obligations.StatusWordLayout : Prop :=
  ∀ st : Status,
    st.word.extractLsb' 0 1 = BitVec.ofBool st.busy ∧ st.word.extractLsb' 1 1 = BitVec.ofBool st.fault ∧
    st.word.extractLsb' 2 1 = BitVec.ofBool st.active ∧ st.word.extractLsb' 3 1 = BitVec.ofBool st.ovr ∧
    st.word.extractLsb' 4 3 = st.outcome.code ∧ st.word.extractLsb' 7 1 = 0#1 ∧
    st.word.extractLsb' 8 8 = st.rdata ∧ st.word.extractLsb' 16 16 = 0#16

/-- The codes of the outcomes and of the fault causes (R96, R32, R237): as tabled, and code 7 is none of them. -/
def Obligations.OutcomeAndCauseCodes : Prop :=
  CmdOutcome.none.code = 0#3 ∧ CmdOutcome.success.code = 1#3 ∧ CmdOutcome.unlockFailed.code = 2#3 ∧
  CmdOutcome.stillLocked.code = 3#3 ∧ CmdOutcome.bitstreamRejected.code = 4#3 ∧ CmdOutcome.timeout.code = 5#3 ∧
  CmdOutcome.cmdRefused.code = 6#3 ∧ (∀ o : CmdOutcome, o.code ≠ 7#3) ∧
  FaultCause.none.code = 0#2 ∧ FaultCause.windowUnmapped.code = 1#2 ∧ FaultCause.outOfWindow.code = 2#2 ∧
  FaultCause.busError.code = 3#2

/-! ### Steps, acceptance, drops, faults, reset -/

/-- A step runs the decoded command: the offered word's in `IDLE`, and the command in progress when the host does
nothing (log entry 2: the model's `exec i` is one phase of `i`). -/
def Obligations.StepRunsTheCommand : Prop :=
  (∀ (s : State) (cw : Word) (i : Instr) (rest : List HostInput),
    s.cfg.wf = true → s.phase = .idle → s.inputs = .offer cw :: rest → decode cw = .ok i →
    step s = exec i { s with inputs := rest }) ∧
  (∀ (s : State) (i : Instr), s.cfg.wf = true → s.inputs = [] → s.current = some i → step s = exec i s) ∧
  (∀ (s : State) (i : Instr) (rest : List HostInput), s.cfg.wf = true → s.inputs = .tick :: rest →
    s.current = some i → step s = exec i { s with inputs := rest })

/-- Acceptance (R90): a valid word offered in `IDLE` latches the command's operands and `WIN_VALID`, sets the status and
the command's first phase, and changes nothing else but that the working registers hold no value (R28). -/
def Obligations.AcceptanceLatchesOperands : Prop :=
  ∀ (s : State) (cw : Word) (i : Instr) (rest : List HostInput),
    s.cfg.wf = true → s.phase = .idle → s.inputs = .offer cw :: rest → decode cw = .ok i →
    step s = .next { s with
      inputs := rest
      phase := firstPhase i
      operands := latchedOperands i s
      status := { s.status with busy := true, ovr := false, outcome := .none }
      work := ⟨none, none, none, none, none, none, none, none⟩ }

/-- R235: a word offered outside `IDLE` sets `OVR` and does nothing else; only an accepted command and reset clear
`OVR`. -/
def Obligations.BusyOfferDropped : Prop :=
  (∀ (s : State) (cw : Word) (rest : List HostInput),
    s.cfg.wf = true → s.phase ≠ .idle → s.inputs = .offer cw :: rest →
    step s = .next { s with inputs := rest, status := { s.status with ovr := true } }) ∧
  ∀ (s t : State), step s = .next t → s.status.ovr = true → t.status.ovr = false →
    (s.phase = .idle ∧ ∃ cw i rest, s.inputs = .offer cw :: rest ∧ decode cw = .ok i) ∨
    ∃ landed rest, s.inputs = .reset landed :: rest

/-- R236: what raising a fault does, that `FAULT` is left by reset only, without a transaction, and that a faulted command
has not ended, nor the run of its program (log entry 28's reading of the end of a command and of a program). That a step in
`FAULT` changes nothing of the sequencer's but `OVR`, where the spec has no step, is log entry 16. -/
def Obligations.FaultIsLeftByResetOnly : Prop :=
  (∀ s t : State, t.phase = .fault → (∀ k, ¬ s.commandEnds k t) ∧ ∀ k, run k s = .next t → ¬ s.programEnded k) ∧
  (∀ (s : State) (cause : FaultCause) (info : Word),
    s.raiseFault cause info =
      { s with status := { s.status with fault := true }, faultInfo := ⟨cause, info⟩, phase := .fault }) ∧
  ∀ (s t : State), s.phase = .fault → step s = .next t →
    (∃ landed rest, s.inputs = .reset landed :: rest) ∨
    (t.phase = .fault ∧ t.trace = s.trace ∧ t.window = s.window ∧ t.faultInfo = s.faultInfo ∧
      t.operands = s.operands ∧ t.status = { s.status with ovr := t.status.ovr })

/-- Reset from any phase gives the state of R33, keeps everything that is not the sequencer's (R261), issues nothing of its
own, and lets at most the transaction under way land (R260): the one event it can add is the access the phase was about to
issue, and the window changes by that write only. The model's own choices here: the input `reset` says whether the
transaction lands (log entry 17), the mapping and the image are the providers' and stay, and the operand registers become
zero, which is not stated (log entry 3). -/
def Obligations.ResetGivesIdle : Prop :=
  ∀ (s : State) (landed : Bool) (rest : List HostInput),
    s.cfg.wf = true → s.inputs = .reset landed :: rest →
    ∃ t, step s = .next t ∧ t.phase = .idle ∧ t.status.word = 0#32 ∧ t.faultInfo = ⟨.none, 0#32⟩ ∧
      t.work = ⟨none, none, none, none, none, none, none, none⟩ ∧
      t.cfg = s.cfg ∧ t.winMapped = s.winMapped ∧ t.image = s.image ∧ t.inputs = rest ∧
      (landed = false ∨ s.underWay = false → t.trace = s.trace ∧ t.window = s.window) ∧
      ((t.trace = s.trace ∧ t.window = s.window) ∨
        ∃ a, s.pendingAddr = some a ∧ a + 4 ≤ s.cfg.winSize ∧
          ((∃ v, s.pendingWord = some v ∧ t.trace = .write a v :: s.trace ∧ t.window = s.window.writeWord a v) ∨
            (∃ v, s.pendingWord = none ∧ t.trace = .read a v :: s.trace ∧ t.window = s.window) ∨
            (t.trace = .error a :: s.trace ∧ t.window = s.window)))

/-- A transaction under way when reset is applied reaches the device or does not (R260), whichever transaction of whichever
command it is, completed or hanging. After a reset that lets it land, a write is recorded and on the window, and a read is
recorded with some value; after one that does not, nothing is. That the input says which of the two happens is log entry
17, that an error answer is an event and leaves the window is log entry 9, both the model's choice. -/
def Obligations.WriteUnderWayMayLand : Prop :=
  ∀ (s : State) (a : Nat) (rest : List HostInput), s.cfg.wf = true → s.Inv → s.pendingAddr = some a →
    a + 4 ≤ s.cfg.winSize →
    (s.inputs = .reset true :: rest → ∃ t, step s = .next t ∧ t.phase = .idle ∧
      (s.device.peek = .error → t.trace = .error a :: s.trace ∧ t.window = s.window) ∧
      (s.device.peek ≠ .error →
        (∀ v, s.pendingWord = some v → t.trace = .write a v :: s.trace ∧ t.window = s.window.writeWord a v) ∧
        (s.pendingWord = none → ∃ v, t.trace = .read a v :: s.trace ∧ t.window = s.window ∧
          ∀ w, s.device.peek = Response.ofWord w → v = w))) ∧
    (s.inputs = .reset false :: rest → ∃ t, step s = .next t ∧ t.phase = .idle ∧ t.trace = s.trace ∧
      t.window = s.window)

/-- The state after reset (R33, R262), for every configuration. -/
def Obligations.ResetState : Prop :=
  ∀ c : Config,
    (State.resetWith c).phase = .idle ∧ (State.resetWith c).status = ⟨false, false, false, false, .none, 0x00#8⟩ ∧
    (State.resetWith c).faultInfo = ⟨.none, 0#32⟩ ∧
    (State.resetWith c).work = ⟨none, none, none, none, none, none, none, none⟩ ∧
    (State.resetWith c).cfg = c

/-! ### CSR accessor -/

/-- R123: CSR_READ in its phase, in each case. -/
def Obligations.CsrReadCommand : Prop :=
  decode 0x00000001#32 = .ok .csrRead ∧
  ∀ s : State, s.phase = .crRd →
    (s.operands.winValid = false →
      exec .csrRead s = .next { s with
        status := { s.status with fault := true }, faultInfo := ⟨.windowUnmapped, 0x1#32⟩, phase := .fault }) ∧
    (s.operands.winValid = true → s.cfg.winSize < slot s.operands.argOff.toNat + 4 →
      exec .csrRead s = .next { s with
        status := { s.status with fault := true }
        faultInfo := ⟨.outOfWindow, BitVec.ofNat 32 (slot s.operands.argOff.toNat)⟩
        phase := .fault }) ∧
    (s.operands.winValid = true → slot s.operands.argOff.toNat + 4 ≤ s.cfg.winSize →
      ∀ b0 b1 b2 b3 : Byte, s.device.peek = .done b0 b1 b2 b3 →
      exec .csrRead s = .next { s with
        device := s.device.pop
        trace := .read (slot s.operands.argOff.toNat) (beWord b0 b1 b2 b3) :: s.trace
        work := { s.work with rd := some (beWord b0 b1 b2 b3) }
        status := { s.status with rdata := b3, outcome := .success, busy := false }
        phase := .idle })

/-- R124: CSR_WRITE in its phase, in each case. -/
def Obligations.CsrWriteCommand : Prop :=
  (∀ b : Byte, decode (0x00000002#32 ||| b.setWidth 32 <<< 4) = .ok (.csrWrite b)) ∧
  ∀ (b : Byte) (s : State), s.phase = .cwWr →
    (s.operands.winValid = false →
      exec (.csrWrite b) s = .next { s with
        status := { s.status with fault := true }, faultInfo := ⟨.windowUnmapped, 0x2#32⟩, phase := .fault }) ∧
    (s.operands.winValid = true → s.cfg.winSize < slot s.operands.argOff.toNat + 4 →
      exec (.csrWrite b) s = .next { s with
        status := { s.status with fault := true }
        faultInfo := ⟨.outOfWindow, BitVec.ofNat 32 (slot s.operands.argOff.toNat)⟩
        phase := .fault }) ∧
    (s.operands.winValid = true → slot s.operands.argOff.toNat + 4 ≤ s.cfg.winSize → s.device.peek.completes →
      exec (.csrWrite b) s = .next { s with
        device := s.device.pop
        window := s.window.writeWord (slot s.operands.argOff.toNat) (s.operands.argByte.setWidth 32)
        trace := .write (slot s.operands.argOff.toNat) (s.operands.argByte.setWidth 32) :: s.trace
        status := { s.status with outcome := .success, busy := false }
        phase := .idle })

/-- The slot of a 32-bit offset is `off & ~3` (R67, R13), and offsets of one slot give CSR_READ and CSR_WRITE one
address: bits 1:0 never change which byte is accessed. -/
def Obligations.SlotIgnoresLowBits : Prop :=
  (∀ off : Word, slot off.toNat = (off &&& ~~~ 3#32).toNat) ∧
  ∀ (i : Instr) (s : State) (off : Word), s.phase ≠ .idle → off &&& ~~~ 3#32 = s.operands.argOff &&& ~~~ 3#32 →
    ∀ t, exec i s = .next t →
      exec i { s with operands := { s.operands with argOff := off } } =
        .next { t with operands := { t.operands with argOff := off } }

/-- Where a CSR_WRITE's byte lands (R121, R62): at the slot's byte 3, zeros at its bytes 0 to 2, every other byte of the
window as before. -/
def Obligations.CsrWriteBytes : Prop :=
  ∀ (b : Byte) (s : State), s.phase = .cwWr → s.operands.winValid = true →
    slot s.operands.argOff.toNat + 4 ≤ s.cfg.winSize → s.device.peek.completes →
    ∃ t, exec (.csrWrite b) s = .next t ∧
      t.window.read (slot s.operands.argOff.toNat + 3) = some s.operands.argByte ∧
      (∀ x, slot s.operands.argOff.toNat ≤ x → x < slot s.operands.argOff.toNat + 3 →
        t.window.read x = some 0x00#8) ∧
      (∀ x, x < slot s.operands.argOff.toNat ∨ slot s.operands.argOff.toNat + 4 ≤ x →
        t.window.read x = s.window.read x)

/-- The window is big-endian (R62): what a word write puts at each byte and leaves elsewhere, and the value a read makes
of the four bytes the device shows. -/
def Obligations.WindowIsBigEndian : Prop :=
  (∀ (m : Memory) (a x : Nat) (v : Word),
    ((m.writeWord a v).read a = some (v.extractLsb' 24 8) ∧
      (m.writeWord a v).read (a + 1) = some (v.extractLsb' 16 8) ∧
      (m.writeWord a v).read (a + 2) = some (v.extractLsb' 8 8) ∧
      (m.writeWord a v).read (a + 3) = some (v.extractLsb' 0 8)) ∧
    (x < a ∨ a + 4 ≤ x → (m.writeWord a v).read x = m.read x)) ∧
  ∀ (a : Nat) (s : State) (b0 b1 b2 b3 : Byte) (k : Word → State → StepResult),
    a + 4 ≤ s.cfg.winSize → s.device.peek = .done b0 b1 b2 b3 →
    ∃ (v : Word) (t : State), memRead a k s = k v t ∧ v.extractLsb' 24 8 = b0 ∧ v.extractLsb' 16 8 = b1 ∧
      v.extractLsb' 8 8 = b2 ∧ v.extractLsb' 0 8 = b3

/-! ### Unlock and detection -/

/-- UNLOCK's phases (R142): the window check, each trigger write, and the finish after the eighth. -/
def Obligations.UnlockCommand : Prop :=
  decode 0x00000003#32 = .ok .unlock ∧
  (∀ s : State, s.phase = .ulChk →
    (s.operands.winValid = false →
      exec .unlock s = .next { s with
        status := { s.status with outcome := .unlockFailed, busy := false }, phase := .idle }) ∧
    (s.operands.winValid = true →
      exec .unlock s = .next { s with work := { s.work with j := some 0 }, phase := .ulTrig })) ∧
  ∀ (s : State) (j : Nat), s.cfg.wf = true → s.phase = .ulTrig → s.work.j = some j → j < 8 →
    s.device.peek.completes →
    exec .unlock s = .next { s with
      device := s.device.pop
      window := s.window.writeWord (s.cfg.ldrBase + s.cfg.offBtrigr) (unlockWord j)
      trace := .write (s.cfg.ldrBase + s.cfg.offBtrigr) (unlockWord j) :: s.trace
      work := { s.work with j := some (j + 1) }
      status := if j = 7 then { s.status with outcome := .success, busy := false } else s.status
      phase := if j = 7 then .idle else .ulTrig }

/-- The eight unlock words (R97). -/
def Obligations.UnlockWords : Prop :=
  magic = [0xDE#8, 0xAD#8, 0xBE#8, 0xEF#8, 0xCA#8, 0xFE#8, 0xBA#8, 0xBE#8] ∧
  (List.range 8).map unlockWord =
    [0x000000DE#32, 0x000000AD#32, 0x000000BE#32, 0x000000EF#32, 0x000000CA#32, 0x000000FE#32, 0x000000BA#32,
      0x000000BE#32]

/-- UNLOCK from its offer to its end (R141, R142): ten steps, exactly the eight trigger writes, `Success`, `ACTIVE` and
`RDATA` unchanged. And the pseudo-instruction `probe` (R106) on a loader just found active: its two commands issue the eight
writes and one identifier read, and under the device premise `DEV_UNLOCK_IDEM` (R146, log entry 27) it finds it active. -/
def Obligations.UnlockRun : Prop :=
  (∀ (s : State) (cw : Word), s.cfg.wf = true → s.phase = .idle → s.winMapped = true → s.inputs = [.offer cw] →
    decode cw = .ok .unlock → s.device.gives (unlockTrace s.cfg) →
    ∃ t, run 10 s = .next t ∧ t.phase = .idle ∧ t.trace = (unlockTrace s.cfg).reverse ++ s.trace ∧
      t.status = { s.status with busy := false, ovr := false, outcome := .success }) ∧
  ∀ (s : State) (v : Word) (older : List BusEvent), s.cfg.wf = true → s.phase = .idle → s.winMapped = true →
    s.inputs = AsmLine.inputs s.cfg .probe → s.trace = .read (s.cfg.ldrBase + s.cfg.offIdr) s.cfg.idWord :: older →
    s.device.gives (unlockTrace s.cfg ++ [.read (s.cfg.ldrBase + s.cfg.offIdr) v]) →
    ∃ t, run 14 s = .next t ∧ t.phase = .idle ∧ t.inputs = [] ∧
      t.trace = .read (s.cfg.ldrBase + s.cfg.offIdr) v :: ((unlockTrace s.cfg).reverse ++ s.trace) ∧
      (unlockIdem s.cfg t.trace → t.status.active = true ∧ t.status.outcome = .success)

/-- IS_ACTIVE in its phase (R144): the fault on an unmapped window, and the one read whose value decides. -/
def Obligations.IsActiveCommand : Prop :=
  decode 0x00000004#32 = .ok .isActive ∧
  ∀ s : State, s.cfg.wf = true → s.phase = .iaRd →
    (s.operands.winValid = false →
      exec .isActive s = .next { s with
        status := { s.status with fault := true }, faultInfo := ⟨.windowUnmapped, 0x4#32⟩, phase := .fault }) ∧
    (s.operands.winValid = true → ∀ v : Word, s.device.peek = Response.ofWord v →
      exec .isActive s = .next { s with
        device := s.device.pop
        trace := .read (s.cfg.ldrBase + s.cfg.offIdr) v :: s.trace
        work := { s.work with rd := some v }
        status := { s.status with
          active := decide (v = s.cfg.idWord)
          outcome := if v = s.cfg.idWord then .success else .stillLocked
          busy := false }
        phase := .idle })

/-! ### LOAD -/

/-- LOAD's checks (R161): a null or empty image first, then an unmapped window, both `BitstreamRejected` with no
transaction; any other image of any length goes on. -/
def Obligations.LoadChecks : Prop :=
  ∀ s : State, s.phase = .ldChk →
    ((s.operands.imgValid = false ∨ s.operands.imgLen = 0#32 ∨ s.operands.winValid = false) →
      exec .load s = .next { s with
        status := { s.status with outcome := .bitstreamRejected, busy := false }, phase := .idle }) ∧
    (s.operands.imgValid = true → s.operands.imgLen ≠ 0#32 → s.operands.winValid = true →
      exec .load s = .next { s with work := { s.work with j := some 0 }, phase := .ldTrig })

/-- Unlock and detection inside LOAD (R162): the trigger writes, the identifier read right after the eighth, and the
abort with `StillLocked` on a mismatch. -/
def Obligations.LoadDetection : Prop :=
  (∀ (s : State) (j : Nat), s.cfg.wf = true → s.phase = .ldTrig → s.work.j = some j → j < 8 →
    s.device.peek.completes →
    exec .load s = .next { s with
      device := s.device.pop
      window := s.window.writeWord (s.cfg.ldrBase + s.cfg.offBtrigr) (unlockWord j)
      trace := .write (s.cfg.ldrBase + s.cfg.offBtrigr) (unlockWord j) :: s.trace
      work := { s.work with j := some (j + 1) }
      phase := if j = 7 then .ldDet else .ldTrig }) ∧
  ∀ (s : State) (v : Word), s.cfg.wf = true → s.phase = .ldDet → s.device.peek = Response.ofWord v →
    exec .load s = .next { s with
      device := s.device.pop
      trace := .read (s.cfg.ldrBase + s.cfg.offIdr) v :: s.trace
      work := { s.work with rd := some v }
      status := if v = s.cfg.idWord then { s.status with active := true }
        else { s.status with active := false, outcome := .stillLocked, busy := false }
      phase := if v = s.cfg.idWord then .ldSwrst else .idle }

/-- LOAD whose identifier read does not match (R162): exactly nine transactions, `StillLocked`, no software reset, no
start, no exit write. -/
def Obligations.LoadStillLockedRun : Prop :=
  ∀ (s : State) (cw v : Word), s.cfg.wf = true → s.phase = .idle → s.winMapped = true → s.port.imgValid = true →
    s.port.imgLen ≠ 0#32 → s.inputs = [.offer cw] → decode cw = .ok .load → v ≠ s.cfg.idWord →
    s.device.gives (unlockTrace s.cfg ++ [.read (s.cfg.ldrBase + s.cfg.offIdr) v]) →
    ∃ t, run 11 s = .next t ∧ t.phase = .idle ∧
      t.trace = .read (s.cfg.ldrBase + s.cfg.offIdr) v :: ((unlockTrace s.cfg).reverse ++ s.trace) ∧
      t.status = { s.status with busy := false, ovr := false, active := false, outcome := .stillLocked }

/-- Session reset and start (R163): two consecutive writes to the loader CSR. -/
def Obligations.SessionStart : Prop :=
  ∀ s : State, s.cfg.wf = true → s.device.peek.completes →
    (s.phase = .ldSwrst →
      exec .load s = .next { s with
        device := s.device.pop
        window := s.window.writeWord (s.cfg.ldrBase + s.cfg.offCsr) s.cfg.csrSwrst
        trace := .write (s.cfg.ldrBase + s.cfg.offCsr) s.cfg.csrSwrst :: s.trace
        phase := .ldStart }) ∧
    (s.phase = .ldStart →
      exec .load s = .next { s with
        device := s.device.pop
        window := s.window.writeWord (s.cfg.ldrBase + s.cfg.offCsr) (s.cfg.csrStart ||| s.cfg.csrMsbf)
        trace := .write (s.cfg.ldrBase + s.cfg.offCsr) (s.cfg.csrStart ||| s.cfg.csrMsbf) :: s.trace
        work := { s.work with n := some 0, pcCnt := some 0 }
        phase := .ldPollf })

/-- The FIFO poll (R168, R169, R173): it ends the streaming at `n ≥ L` without a transaction; else it is one read of the
FIFO status that finds room, is repeated, or reaches the bound. -/
def Obligations.FifoPoll : Prop :=
  ∀ (s : State) (n : Nat), s.cfg.wf = true → s.phase = .ldPollf → s.work.n = some n →
    (s.operands.imgLen.toNat ≤ n →
      exec .load s = .next { s with work := { s.work with pcCnt := some 0 }, phase := .ldPolld }) ∧
    (n < s.operands.imgLen.toNat → ∀ v : Word, s.device.peek = Response.ofWord v →
      (v &&& s.cfg.fifoFull = 0#32 →
        exec .load s = .next { s with
          device := s.device.pop
          trace := .read (s.cfg.ldrBase + s.cfg.offFifoCsr) v :: s.trace
          work := { s.work with rd := some v, pcCnt := some 0 }
          phase := .ldCtl }) ∧
      (v &&& s.cfg.fifoFull ≠ 0#32 → ∀ cnt, s.work.pcCnt = some cnt →
        (s.cfg.pollLimit ≠ some (cnt + 1) →
          exec .load s = .next { s with
            device := s.device.pop
            trace := .read (s.cfg.ldrBase + s.cfg.offFifoCsr) v :: s.trace
            work := { s.work with rd := some v, pcCnt := some (cnt + 1) } }) ∧
        (s.cfg.pollLimit = some (cnt + 1) →
          exec .load s = .next { s with
            device := s.device.pop
            trace := .read (s.cfg.ldrBase + s.cfg.offFifoCsr) v :: s.trace
            work := { s.work with rd := some v, pcCnt := some (cnt + 1), res := some .timeout }
            phase := .ldExit })))

/-- The control word's layout (R99): `XSIZE` in bits 1:0, `P_XLAST`, every other bit 0. -/
def Obligations.ControlWordLayout : Prop :=
  ∀ (c : Config) (len : Nat) (lf : Bool), c.wf = true → 1 ≤ len → len ≤ 4 →
    (ctrlWord c len lf).extractLsb' 0 2 = BitVec.ofNat 2 (len - 1) ∧
    (ctrlWord c len lf &&& c.xlast = if lf then c.xlast else 0#32) ∧
    ctrlWord c len lf &&& ~~~ (3#32 ||| c.xlast) = 0#32 ∧
    ctrlWord c 4 true = 0x03#32 ||| c.xlast

/-- Which chunk carries the last flag (R166), for chunk `i` of `C = ceil(L/4)`. -/
def Obligations.LastFlagOnFinalChunk : Prop :=
  ∀ (c : Config) (len i : Nat), 1 ≤ len → i < (len + 3) / 4 →
    (c.lastOnFull = true → (lastFlag c len (4 * i) = true ↔ i + 1 = (len + 3) / 4)) ∧
    (c.lastOnFull = false → (lastFlag c len (4 * i) = true ↔ min 4 (len - 4 * i) < 4))

/-- The control-word write (R165): before the data word, to `LDR(FIFO_R0)`. -/
def Obligations.ControlWordWrite : Prop :=
  ∀ (s : State) (n : Nat), s.cfg.wf = true → s.phase = .ldCtl → s.work.n = some n → s.device.peek.completes →
    exec .load s = .next { s with
      device := s.device.pop
      window := s.window.writeWord (s.cfg.ldrBase + s.cfg.offFifoR0)
        (ctrlWord s.cfg (min 4 (s.operands.imgLen.toNat - n)) (lastFlag s.cfg s.operands.imgLen.toNat n))
      trace := .write (s.cfg.ldrBase + s.cfg.offFifoR0)
        (ctrlWord s.cfg (min 4 (s.operands.imgLen.toNat - n)) (lastFlag s.cfg s.operands.imgLen.toNat n)) :: s.trace
      phase := .ldData }

/-- The data-word write (R167, R169): one word to `LDR(FIFO_R1)` with the image bytes in image order, first byte in bits
31:24, whatever the pad bytes are; `n` advances by 4 and the FIFO is polled again. -/
def Obligations.DataWordWrite : Prop :=
  ∀ (s : State) (n : Nat), s.cfg.wf = true → s.phase = .ldData → s.work.n = some n → s.device.peek.completes →
    ∃ v : Word,
      (n < s.operands.imgLen.toNat → ∀ b, s.image[n]? = some b → v.extractLsb' 24 8 = b) ∧
      (n + 1 < s.operands.imgLen.toNat → ∀ b, s.image[n + 1]? = some b → v.extractLsb' 16 8 = b) ∧
      (n + 2 < s.operands.imgLen.toNat → ∀ b, s.image[n + 2]? = some b → v.extractLsb' 8 8 = b) ∧
      (n + 3 < s.operands.imgLen.toNat → ∀ b, s.image[n + 3]? = some b → v.extractLsb' 0 8 = b) ∧
      exec .load s = .next { s with
        device := s.device.pop
        window := s.window.writeWord (s.cfg.ldrBase + s.cfg.offFifoR1) v
        trace := .write (s.cfg.ldrBase + s.cfg.offFifoR1) v :: s.trace
        work := { s.work with n := some (n + 4) }
        draws := s.draws + 4
        phase := .ldPollf }

/-- The payload lies on the window in image order (R64, R62): after the data-word write, window byte `LDR(FIFO_R1) + i`
is image byte `n + i`, and every byte outside the register is as before. -/
def Obligations.PayloadBytesInImageOrder : Prop :=
  ∀ (s : State) (n : Nat), s.cfg.wf = true → s.phase = .ldData → s.work.n = some n → s.device.peek.completes →
    ∃ t, exec .load s = .next t ∧
      (∀ i b, i < 4 → n + i < s.operands.imgLen.toNat → s.image[n + i]? = some b →
        t.window.read (s.cfg.ldrBase + s.cfg.offFifoR1 + i) = some b) ∧
      (∀ x, x < s.cfg.ldrBase + s.cfg.offFifoR1 ∨ s.cfg.ldrBase + s.cfg.offFifoR1 + 4 ≤ x →
        t.window.read x = s.window.read x)

/-- The sequencer reads `Img(k)` only for `k < L` (R167, R78): images that agree below `L` give one behaviour. -/
def Obligations.ImageReadBelowLength : Prop :=
  ∀ (s t : State) (img : List Byte), s.phase ≠ .idle →
    (∀ k, k < s.operands.imgLen.toNat → img[k]? = s.image[k]?) → exec .load s = .next t →
    exec .load { s with image := img } = .next { t with image := img }

/-- The completion poll (R170, R171, R173): one read of the loader CSR; done ends it with the outcome of the same read,
an error flag without done is ignored, and the bound gives `Timeout`. -/
def Obligations.CompletionPoll : Prop :=
  ∀ (s : State) (v : Word), s.cfg.wf = true → s.phase = .ldPolld → s.device.peek = Response.ofWord v →
    (v &&& s.cfg.csrDone ≠ 0#32 →
      exec .load s = .next { s with
        device := s.device.pop
        trace := .read (s.cfg.ldrBase + s.cfg.offCsr) v :: s.trace
        work := { s.work with
          rd := some v
          res := some (if v &&& s.cfg.csrError ≠ 0#32 then .bitstreamRejected else .success) }
        phase := .ldExit }) ∧
    (v &&& s.cfg.csrDone = 0#32 → ∀ cnt, s.work.pcCnt = some cnt →
      (s.cfg.pollLimit ≠ some (cnt + 1) →
        exec .load s = .next { s with
          device := s.device.pop
          trace := .read (s.cfg.ldrBase + s.cfg.offCsr) v :: s.trace
          work := { s.work with rd := some v, pcCnt := some (cnt + 1) } }) ∧
      (s.cfg.pollLimit = some (cnt + 1) →
        exec .load s = .next { s with
          device := s.device.pop
          trace := .read (s.cfg.ldrBase + s.cfg.offCsr) v :: s.trace
          work := { s.work with rd := some v, pcCnt := some (cnt + 1), res := some .timeout }
          phase := .ldExit }))

/-- The exit write (R172): whatever `res` is, `W_EXIT` is written and `res` reported. -/
def Obligations.ExitHandshake : Prop :=
  ∀ (s : State) (res : CmdOutcome), s.cfg.wf = true → s.phase = .ldExit → s.work.res = some res →
    s.device.peek.completes →
    exec .load s = .next { s with
      device := s.device.pop
      window := s.window.writeWord (s.cfg.ldrBase + s.cfg.offCsr) s.cfg.csrExit
      trace := .write (s.cfg.ldrBase + s.cfg.offCsr) s.cfg.csrExit :: s.trace
      status := { s.status with outcome := res, busy := false }
      phase := .idle }

/-- Every LOAD that issued `W_START` ends by the exit write (R172): from a phase after the start write, a step into `IDLE`
is a reset or the exit write. -/
def Obligations.SessionEndsByExitWrite : Prop :=
  ∀ (s t : State), s.phase ∈ [Phase.ldPollf, .ldCtl, .ldData, .ldPolld, .ldExit] → step s = .next t →
    t.phase = .idle →
    (∃ landed rest, s.inputs = .reset landed :: rest) ∨
    (s.phase = .ldExit ∧ t.trace = .write (s.cfg.ldrBase + s.cfg.offCsr) s.cfg.csrExit :: s.trace)

/-- The whole LOAD that ends by a done read (R160, R176): for every image, every number of unsatisfied polls before every
chunk and before the done read (each wait shorter than the bound, if there is one), the run issues exactly the transactions
of R176 and reports the done read's outcome. -/
def Obligations.LoadRun : Prop :=
  ∀ (s : State) (cw : Word) (polls : List (List Word × Word)) (waits : List Word) (last : Word),
    s.cfg.wf = true → s.phase = .idle → s.winMapped = true → s.port.imgValid = true →
    s.port.imgLen ≠ 0#32 → s.inputs = [.offer cw] → decode cw = .ok .load →
    polls.length = (s.port.imgLen.toNat + 3) / 4 →
    (∀ p ∈ polls, (∀ v ∈ p.1, v &&& s.cfg.fifoFull ≠ 0#32) ∧ p.2 &&& s.cfg.fifoFull = 0#32) →
    (∀ v ∈ waits, v &&& s.cfg.csrDone = 0#32) → last &&& s.cfg.csrDone ≠ 0#32 →
    (∀ m, s.cfg.pollLimit = some m → (∀ p ∈ polls, p.1.length < m) ∧ waits.length < m) →
    s.device.gives (loadTrace s.cfg s.image s.port.imgLen.toNat s.draws polls waits last) →
    ∃ t, run (16 + 3 * polls.length + (polls.map (fun p => p.1.length)).sum + waits.length) s = .next t ∧
      t.phase = .idle ∧
      t.trace = (loadTrace s.cfg s.image s.port.imgLen.toNat s.draws polls waits last).reverse ++ s.trace ∧
      t.status = { s.status with
        busy := false, ovr := false, active := true
        outcome := if last &&& s.cfg.csrError ≠ 0#32 then .bitstreamRejected else .success }

/-- LOAD ends, under the device premises of R265 (R271, R272): from any state of LOAD the sequencer can be in, if no
transaction of the run fails and every wait of the run is ended by the device in the end, the command ends. The device's
answers are those of its stream (log entry 11), the premises are log entry 27's reading of R265, and `commandEnds` is log
entry 28's of R272. -/
def Obligations.LoadEnds : Prop :=
  ∀ s : State, s.cfg.wf = true → s.Inv → s.inputs = [] → s.current = some .load → s.noBusError → s.fifoDrains →
    s.doneEventually → ∃ k t, s.commandEnds k t

/-- The endless polls (R177): with no bound, a device whose answers all have FIFO-full set keeps LOAD in the FIFO poll for
ever, and one whose answers all have DONE clear, whatever their error flag, keeps it in the completion poll for ever: one
read a step with the value the device shows, `BUSY = 1`, no end. The answers are the device's stream (log entry 11). -/
def Obligations.FullForeverPollsForever : Prop :=
  ∀ (s : State) (cnt : Nat), s.cfg.wf = true → s.cfg.pollLimit = none → s.inputs = [] → s.status.busy = true →
    s.work.pcCnt = some cnt → (∀ m, (s.device.later m).peek.completes) →
    (∀ n, s.phase = .ldPollf → s.work.n = some n → n < s.operands.imgLen.toNat →
      (∀ m, s.device.value m &&& s.cfg.fifoFull ≠ 0#32) →
      ∀ k, ∃ t, run k s = .next t ∧ t.phase = .ldPollf ∧ t.status.busy = true ∧
        t.trace = ((List.range k).map (fun m => .read (s.cfg.ldrBase + s.cfg.offFifoCsr) (s.device.value m))).reverse ++
          s.trace) ∧
    (s.phase = .ldPolld → (∀ m, s.device.value m &&& s.cfg.csrDone = 0#32) →
      ∀ k, ∃ t, run k s = .next t ∧ t.phase = .ldPolld ∧ t.status.busy = true ∧
        t.trace = ((List.range k).map (fun m => .read (s.cfg.ldrBase + s.cfg.offCsr) (s.device.value m))).reverse ++
          s.trace)

/-! ### ACTIVATE -/

/-- The relocation tuple (R103, R205): its four bytes, bits 1:0 of the fourth zero, and no dependence on bits 7:0 of the
address; with the source's two examples. -/
def Obligations.RelocationTuple : Prop :=
  (∀ (c : Config) (addr : Word), c.wf = true →
    (reloc c addr).b0 = addr.extractLsb' 24 8 ∧ (reloc c addr).b1 = addr.extractLsb' 16 8 ∧
    (reloc c addr).b2 = addr.extractLsb' 8 8 ∧ (reloc c addr).b3 = BitVec.ofNat 8 (4 * c.am.toNat) ∧
    (reloc c addr).b3.extractLsb' 0 2 = 0#2) ∧
  (∀ (c : Config) (a a' : Word), a >>> 8 = a' >>> 8 → reloc c a = reloc c a') ∧
  (∀ c : Config, reloc c 0x39000000#32 = ⟨0x39#8, 0x00#8, 0x00#8, c.am <<< 2⟩ ∧
    reloc c 0x39001234#32 = ⟨0x39#8, 0x00#8, 0x12#8, c.am <<< 2⟩)

/-- ACTIVATE's phases before the relocation (R201 to R204), the fault on an unmapped window first. Each write goes to
its slot with its byte, and the phase that follows is `AC_RB` with a read-back and the next phase without one (R208). -/
def Obligations.ActivateSetupWrites : Prop :=
  ∀ s : State, s.cfg.wf = true →
    (s.phase = .acRst → s.operands.winValid = false →
      exec .activate s = .next { s with
        status := { s.status with fault := true }, faultInfo := ⟨.windowUnmapped, 0x6#32⟩, phase := .fault }) ∧
    (s.phase = .acWait → exec .activate s = .next { s with trace := .delay s.cfg.settle :: s.trace, phase := .acDis }) ∧
    (s.device.peek.completes → ∀ (w : ActWrite) (off : Nat) (b : Byte) (p : Phase),
      (w, s.phase, off, b, p) ∈ [(.rst, .acRst, s.cfg.offBitset, s.cfg.resetCore, .acWait),
        (.dis, .acDis, s.cfg.offBitclr, s.cfg.enableCore, .acWb), (.wb, .acWb, s.cfg.offWbmode, s.cfg.wb32, .acVec),
        (.vec, .acVec, s.cfg.offIntvec, s.operands.cfgVec, .acLvl)] →
      (s.phase = .acRst → s.operands.winValid = true) →
      exec .activate s = .next { s with
        device := s.device.pop
        window := s.window.writeWord (slot off) (b.setWidth 32)
        trace := .write (slot off) (b.setWidth 32) :: s.trace
        work := if s.cfg.readback then { s.work with rb := some w } else s.work
        phase := if s.cfg.readback then .acRb else p })

/-- ACTIVATE's level write, relocation writes and enable write (R204 to R207). With a read-back (R208) the write is the same
and `AC_RB` comes next: the tuple, `k` and the status do not change until it is done (`ReadBackHasNoEffect`), and `rb`, the
model's own register (log entry 6), names the write. -/
def Obligations.ActivateRelocationWrites : Prop :=
  ∀ s : State, s.cfg.wf = true → s.device.peek.completes →
    (s.phase = .acLvl →
      exec .activate s = .next { s with
        device := s.device.pop
        window := s.window.writeWord (slot s.cfg.offIntlvl) (s.operands.cfgLvl.setWidth 32)
        trace := .write (slot s.cfg.offIntlvl) (s.operands.cfgLvl.setWidth 32) :: s.trace
        work := if s.cfg.readback then { s.work with rb := some .lvl }
          else { s.work with tup := some (reloc s.cfg s.operands.cfgAddr), k := some 0 }
        phase := if s.cfg.readback then .acRb else .acAder }) ∧
    (s.phase = .acAder → ∀ (k : Nat) (tup : Tuple), s.work.k = some k → s.work.tup = some tup → k < 4 →
      exec .activate s = .next { s with
        device := s.device.pop
        window := s.window.writeWord (slot (s.cfg.offAder0 + 4 * k)) ((tup.get k).setWidth 32)
        trace := .write (slot (s.cfg.offAder0 + 4 * k)) ((tup.get k).setWidth 32) :: s.trace
        work := if s.cfg.readback then { s.work with rb := some .ader } else { s.work with k := some (k + 1) }
        phase := if s.cfg.readback then .acRb else if k = 3 then .acEn else .acAder }) ∧
    (s.phase = .acEn →
      exec .activate s = .next { s with
        device := s.device.pop
        window := s.window.writeWord (slot s.cfg.offBitset) (s.cfg.enableCore.setWidth 32)
        trace := .write (slot s.cfg.offBitset) (s.cfg.enableCore.setWidth 32) :: s.trace
        work := if s.cfg.readback then { s.work with rb := some .en } else s.work
        status := if s.cfg.readback then s.status else { s.status with outcome := .success, busy := false }
        phase := if s.cfg.readback then .acRb else .idle })

/-- The read-back (R208): `AC_RB` issues one read of the slot just written, whose value goes to `rd` and nowhere else, and
then does what the phase that wrote would have done without it (R200): the whole next state, for each of the seven writes.
The slot of a relocation write is that of the index `k`; that of the other six is fixed, whether `k` holds a value or not.
`rb`, which names the write, is the model's own register (log entry 6). -/
def Obligations.ReadBackHasNoEffect : Prop :=
  ∀ (s : State) (w : ActWrite) (v : Word), s.cfg.wf = true → s.Inv → s.phase = .acRb → s.work.rb = some w →
    s.device.peek = Response.ofWord v →
    ∃ a, s.pendingAddr = some a ∧
      (∀ k, (w = .ader → s.work.k = some k) → a = slot (match w with
        | .rst | .en => s.cfg.offBitset
        | .dis => s.cfg.offBitclr
        | .wb => s.cfg.offWbmode
        | .vec => s.cfg.offIntvec
        | .lvl => s.cfg.offIntlvl
        | .ader => s.cfg.offAder0 + 4 * k)) ∧
      exec .activate s = .next { s with
        device := s.device.pop
        trace := .read a v :: s.trace
        work := { s.work with
          rd := some v
          tup := if w = .lvl then some (reloc s.cfg s.operands.cfgAddr) else s.work.tup
          k := match w with
            | .lvl => some 0
            | .ader => s.work.k.map (· + 1)
            | .rst | .dis | .wb | .vec | .en => s.work.k }
        status := if w = .en then { s.status with outcome := .success, busy := false } else s.status
        phase := match w with
          | .rst => .acWait
          | .dis => .acWb
          | .wb => .acVec
          | .vec => .acLvl
          | .lvl => .acAder
          | .ader => if s.work.k = some 3 then .acEn else .acAder
          | .en => .idle }

/-- The whole of ACTIVATE (R200, R208, R209): exactly the ten writes in their order with the delay after the first, the
read-backs between them when `P_READBACK` is set, the enable write last, `Success`. -/
def Obligations.ActivateRun : Prop :=
  ∀ (s : State) (cw : Word) (seen : Nat → Word), s.cfg.wf = true → s.phase = .idle → s.winMapped = true →
    s.inputs = [.offer cw] → decode cw = .ok .activate →
    s.device.gives (activateTrace s.cfg s.port.cfgAddr s.port.cfgVec s.port.cfgLvl seen) →
    ∃ t, run (if s.cfg.readback then 22 else 12) s = .next t ∧ t.phase = .idle ∧
      t.trace = (activateTrace s.cfg s.port.cfgAddr s.port.cfgVec s.port.cfgLvl seen).reverse ++ s.trace ∧
      t.status = { s.status with busy := false, ovr := false, outcome := .success }

/-! ### The whole machine -/

/-- The invariant holds after reset, for every configuration. -/
def Obligations.ResetMeetsInvariant : Prop := ∀ c : Config, (State.resetWith c).Inv

/-- Every step keeps the invariant. -/
def Obligations.StepKeepsInvariant : Prop := ∀ s t : State, s.Inv → step s = .next t → t.Inv

/-- R28: the working registers hold no value when a command starts, a read of an unwritten one is a fault and not a zero,
in every phase that reads one, and from a state of the invariant no step reads one. `rb` is the model's own register
(log entry 6). -/
def Obligations.NoUnwrittenRegisterRead : Prop :=
  (∀ (i : Instr) (s t : State), s.phase = .idle → exec i s = .next t →
    t.work = ⟨none, none, none, none, none, none, none, none⟩) ∧
  (∀ s : State,
    (s.phase = .ulTrig → s.work.j = none → exec .unlock s = .fault (.unwritten .j)) ∧
    (s.phase = .ldTrig → s.work.j = none → exec .load s = .fault (.unwritten .j)) ∧
    (s.phase ∈ [Phase.ldPollf, .ldCtl, .ldData] → s.work.n = none → exec .load s = .fault (.unwritten .n)) ∧
    (s.phase = .acAder → s.work.k = none → exec .activate s = .fault (.unwritten .k)) ∧
    (s.phase = .acAder → ∀ k, s.work.k = some k → s.work.tup = none → exec .activate s = .fault (.unwritten .tup)) ∧
    (s.phase = .acRb → s.work.rb = some .ader → s.work.k = none → exec .activate s = .fault (.unwritten .k)) ∧
    (s.phase = .acRb → s.work.rb = none → exec .activate s = .fault (.unwritten .rb))) ∧
  (∀ (s : State) (v : Word), s.cfg.wf = true → s.device.peek = Response.ofWord v →
    (s.phase = .ldPollf → ∀ n, s.work.n = some n → n < s.operands.imgLen.toNat → v &&& s.cfg.fifoFull ≠ 0#32 →
      s.work.pcCnt = none → exec .load s = .fault (.unwritten .pcCnt)) ∧
    (s.phase = .ldPolld → v &&& s.cfg.csrDone = 0#32 → s.work.pcCnt = none →
      exec .load s = .fault (.unwritten .pcCnt)) ∧
    (s.phase = .ldExit → s.work.res = none → exec .load s = .fault (.unwritten .res))) ∧
  ∀ (s : State) (f : Fault), s.Inv → step s ≠ .fault f

/-- At most one event a step (R22, R74): the record of events is never rewritten, a step adds at most one event, and the
window's bytes change by a completed write and by nothing else. That `window` is the record of completed writes is log entry
8, and that a transaction answered with an error is one event and leaves it unchanged is log entry 9: both are the model's
choice and no rule's. -/
def Obligations.OneEventPerStep : Prop :=
  ∀ s t : State, step s = .next t →
    (t.trace = s.trace ∧ t.window = s.window) ∨
    ∃ e, t.trace = e :: s.trace ∧
      t.window = (match e with
        | .write a v => s.window.writeWord a v
        | .read _ _ | .error _ | .delay _ => s.window)

/-- Every transaction is 32 bits wide at a multiple of 4 inside the window (R66, R68, R69). -/
def Obligations.TransactionsOnWindow : Prop :=
  ∀ (s t : State) (e : BusEvent), step s = .next t → t.trace = e :: s.trace → e.onWindow s.cfg

/-- Only CSR_READ and CSR_WRITE reach `OUT_OF_WINDOW` (R69). -/
def Obligations.OnlyCsrAccessLeavesWindow : Prop :=
  ∀ s t : State, s.Inv → step s = .next t → s.faultInfo.cause ≠ .outOfWindow → t.faultInfo.cause = .outOfWindow →
    (s.phase = .crRd ∨ s.phase = .cwWr) ∧ s.cfg.winSize < slot s.operands.argOff.toNat + 4 ∧ t.trace = s.trace

/-- Control transfer (R30): a step without a reset stays in its phase or leads to a successor the rules name. -/
def Obligations.PhaseSuccessors : Prop :=
  ∀ s t : State, step s = .next t →
    (∃ landed rest, s.inputs = .reset landed :: rest) ∨ t.phase = s.phase ∨ t.phase ∈ s.phase.successors

/-- R238: a transaction answered with an error raises `BUS_ERROR` at its address, and one never answered leaves the
sequencer stuck in its phase, whichever transaction of whichever command it is. The model's own here: `INFO` holds the
address modulo 2^32 (log entry 10), the error is recorded as an event and the window stays (log entry 9), and being stuck is
a step that changes nothing (log entry 16). -/
def Obligations.BusErrorAndSilence : Prop :=
  ∀ (s : State) (a : Nat), s.cfg.wf = true → s.Inv → s.inputs = [] → s.pendingAddr = some a →
    a + 4 ≤ s.cfg.winSize →
    (s.device.peek = .error →
      step s = .next { s with
        device := s.device.pop
        trace := .error a :: s.trace
        status := { s.status with fault := true }
        faultInfo := ⟨.busError, BitVec.ofNat 32 a⟩
        phase := .fault }) ∧
    (s.device.peek = .silent → step s = .next s)

/-- `FAULT_INFO` is written only by a fault and cleared only by reset (R32). -/
def Obligations.FaultInfoWrittenByFaultOnly : Prop :=
  ∀ s t : State, step s = .next t → t.faultInfo ≠ s.faultInfo →
    (∃ landed rest, s.inputs = .reset landed :: rest) ∨ (s.phase ≠ .fault ∧ t.phase = .fault)

/-- Which results a command records (R25, R231): `RDATA` is written by CSR_READ's phase only and `ACTIVE` by the identifier
read of IS_ACTIVE or LOAD only, but for reset. -/
def Obligations.ResultFieldsHaveOneWriter : Prop :=
  ∀ s t : State, step s = .next t →
    (∃ landed rest, s.inputs = .reset landed :: rest) ∨
    ((t.status.rdata ≠ s.status.rdata → s.phase = .crRd ∧ t.phase = .idle) ∧
      (t.status.active ≠ s.status.active → s.phase = .iaRd ∨ s.phase = .ldDet))

/-- The operand registers are held while a command is in progress (R23), and no step changes the configuration (R8). -/
def Obligations.OperandsHeld : Prop :=
  ∀ s t : State, step s = .next t →
    t.cfg = s.cfg ∧
    (s.phase ≠ .idle → (∃ landed rest, s.inputs = .reset landed :: rest) ∨ t.operands = s.operands)

/-- A host write of an operand register (R90, R273) sets that register of the host's side and nothing else; and what the host
writes while a command is in progress has no effect on it (R23, R273): the step is the same but for the host's own side. That
the host's side is state of its own, copied by acceptance, is log entry 4. -/
def Obligations.LateOperandWritesHaveNoEffect : Prop :=
  (∀ (s : State) (w : OperandWrite) (rest : List HostInput), s.cfg.wf = true → s.inputs = .write w :: rest →
    step s = .next { s with
      inputs := rest
      port := match w with
        | .argOff v => { s.port with argOff := v }
        | .imgValid v => { s.port with imgValid := v }
        | .imgLen v => { s.port with imgLen := v }
        | .cfgAddr v => { s.port with cfgAddr := v }
        | .cfgVec v => { s.port with cfgVec := v }
        | .cfgLvl v => { s.port with cfgLvl := v } }) ∧
  ∀ (i : Instr) (s t : State) (p : HostPort), s.phase ≠ .idle → exec i s = .next t →
    exec i { s with port := p } = .next { t with port := p }

/-- A dropped command leaves the command in progress undisturbed (R235): its steps do not depend on `OVR`. -/
def Obligations.DroppedOfferDisturbsNothing : Prop :=
  ∀ (i : Instr) (s t : State) (b : Bool), s.current = some i → exec i s = .next t →
    exec i { s with status := { s.status with ovr := b } } = .next { t with status := { t.status with ovr := b } }

/-- A command does not depend on the working state an earlier one left (R29). -/
def Obligations.CommandForgetsWorkingState : Prop :=
  ∀ (i : Instr) (s : State) (w : Working), s.phase = .idle → exec i { s with work := w } = exec i s

/-- A configuration is refused before any step exactly when it breaks a constraint of R9 or a domain of R8. -/
def Obligations.ConfigurationRefused : Prop :=
  ∀ s : State, (∃ k, step s = .refused (.configuration k)) ↔ ¬ s.cfg.AsSpecified

/-- No command is refused or left unmodelled: `exec` refuses nothing, and `step` refuses a configuration and a broken host
duty only (R9, R76, R265): a change of the mapping while a command is in progress, and a change of the image while LOAD is.
Every other `setWindow` and `setImage` (R273's window and image provider, R105) sets the mapping or the image in place and
nothing else. That these two changes are refused, that they are allowed otherwise, and that setting the same value again
goes on, is log entry 18. -/
def Obligations.NoCommandRefused : Prop :=
  (∀ (i : Instr) (s : State) (r : Refusal), exec i s ≠ .refused r) ∧
  (∀ (s : State) (r : Refusal), step s = .refused r →
    (∃ k, r = .configuration k) ∨
    (r = .hostDuty .windowStable ∧ s.current ≠ none ∧ ∃ m rest, s.inputs = .setWindow m :: rest ∧ m ≠ s.winMapped) ∨
    (r = .hostDuty .imageStable ∧ s.current = some .load ∧
      ∃ img rest, s.inputs = .setImage img :: rest ∧ img ≠ s.image)) ∧
  (∀ (s : State) (m : Bool) (rest : List HostInput), s.cfg.wf = true → s.inputs = .setWindow m :: rest →
    (s.current = none ∨ m = s.winMapped → step s = .next { s with inputs := rest, winMapped := m }) ∧
    (s.current ≠ none → m ≠ s.winMapped → step s = .refused (.hostDuty .windowStable))) ∧
  ∀ (s : State) (img : List Byte) (rest : List HostInput), s.cfg.wf = true → s.inputs = .setImage img :: rest →
    (s.current ≠ some .load ∨ img = s.image → step s = .next { s with inputs := rest, image := img }) ∧
    (s.current = some .load → img ≠ s.image → step s = .refused (.hostDuty .imageStable))

/-- The pseudo-instruction `configure` (R106, R264): its host inputs, and that ACTIVATE is not offered when the LOAD before
it did not end with `Success`. -/
def Obligations.ConfigureActivatesAfterSuccessOnly : Prop :=
  ∀ (s : State) (rest : List HostInput), s.cfg.wf = true →
    AsmLine.inputs s.cfg .configure =
      [.offer 0x5#32, .waitDone, .skipUnlessSuccess 2, .offer 0x6#32, .waitDone] ∧
    (s.inputs = .skipUnlessSuccess 2 :: .offer 0x6#32 :: .waitDone :: rest →
      (s.status.outcome = .success → step s = .next { s with inputs := .offer 0x6#32 :: .waitDone :: rest }) ∧
      (s.status.outcome ≠ .success → step s = .next { s with inputs := rest }))
end

