-- ==== Sys2Proof/Laws/Bits.lean ====
section
/-! SUPPORT. Slots and byte lanes. -/

namespace Sys2Proof.Machine

open Sys2Proof

/-- A slot is a multiple of 4 (R67). -/
@[simp] theorem slot_mod_four (off : Nat) : slot off % 4 = 0 := by unfold slot; omega

/-- A slot lies at or below its offset, less than 4 below it. -/
theorem slot_bounds (off : Nat) : slot off ≤ off ∧ off < slot off + 4 := by unfold slot; omega

/-- The lanes of a word assembled big-endian are its bytes in order (R62). -/
@[simp] theorem beByte_beWord_zero (a b c d : Byte) : beByte (beWord a b c d) 0 = a := by
  ext i hi
  interval_cases i <;> simp [beByte, beWord, BitVec.getLsbD_eq_getElem]

@[simp] theorem beByte_beWord_one (a b c d : Byte) : beByte (beWord a b c d) 1 = b := by
  ext i hi
  interval_cases i <;> simp [beByte, beWord, BitVec.getLsbD_eq_getElem]

@[simp] theorem beByte_beWord_two (a b c d : Byte) : beByte (beWord a b c d) 2 = c := by
  ext i hi
  interval_cases i <;> simp [beByte, beWord, BitVec.getLsbD_eq_getElem]

@[simp] theorem beByte_beWord_three (a b c d : Byte) : beByte (beWord a b c d) 3 = d := by
  ext i hi
  interval_cases i <;> simp [beByte, beWord, BitVec.getLsbD_eq_getElem]

/-- A word is the word of its bytes. -/
@[simp] theorem beWord_beByte (v : Word) : beWord (beByte v 0) (beByte v 1) (beByte v 2) (beByte v 3) = v := by
  ext i hi
  interval_cases i <;> simp [beByte, beWord, BitVec.getLsbD_eq_getElem]

end Sys2Proof.Machine
end

