-- ==== Sys2Proof/Laws/Config.lean ====
section
/-! SUPPORT. What a configuration a machine is built for gives: every check of R8 and R9. -/

namespace Sys2Proof

open Sys2Proof.Machine

/-- Every check is in the list of checks. -/
theorem ConfigCheck.mem_all (k : ConfigCheck) : k ∈ ConfigCheck.all := by cases k <;> decide

/-- A well-formed configuration meets each check. -/
theorem Config.wf_holds {c : Config} (h : c.wf = true) (k : ConfigCheck) : c.holds k = true :=
  List.all_eq_true.mp h k k.mem_all

/-- No check is broken exactly when the configuration is well-formed. -/
theorem Config.firstBroken_eq_none_iff {c : Config} : c.firstBroken = none ↔ c.wf = true := by
  simp [Config.firstBroken, Config.wf]

/-- The bound of a poll is never 0 (R8). -/
theorem Config.pollLimit_ne_zero {c : Config} (h : c.wf = true) : c.pollLimit ≠ some 0 := by
  have := Config.wf_holds h .pollLimitPositive
  simpa [Config.holds] using this

/-- Every loader register lies on the window, at a multiple of 4 (R9(1), R68). -/
theorem Config.loader_onWindow {c : Config} (h : c.wf = true) {o : Nat} (ho : o ∈ c.loaderOffsets) :
    (c.ldrBase + o) % 4 = 0 ∧ c.ldrBase + o + 4 ≤ c.winSize := by
  have h1 := Config.wf_holds h .loaderAligned
  have h2 := Config.wf_holds h .loaderInWindow
  have h3 := Config.wf_holds h .ldrBaseAligned
  simp only [Config.holds, List.all_eq_true, beq_iff_eq, decide_eq_true_eq] at h1 h2 h3
  have := h1 o ho
  exact ⟨by omega, h2 o ho⟩

/-- Every CR/CSR slot of ACTIVATE lies on the window (R9(5)). -/
theorem Config.csr_inWindow {c : Config} (h : c.wf = true) {o : Nat} (ho : o ∈ c.csrOffsets) :
    slot o + 4 ≤ c.winSize := by
  have h1 := Config.wf_holds h .csrInWindow
  simp only [Config.holds, List.all_eq_true, decide_eq_true_eq] at h1
  exact h1 o ho

end Sys2Proof
end

