-- ==== Sys2Proof/Laws/State.lean ====
section
/-! SUPPORT. What each update of the state does to each field, one lemma a field, so that no later proof unfolds a
record update. -/

namespace Sys2Proof.Machine.State

open Sys2Proof

variable (s : State)

/-! `goto` -/

@[simp] theorem goto_cfg (p : Phase) : (s.goto p).cfg = s.cfg := rfl
@[simp] theorem goto_phase (p : Phase) : (s.goto p).phase = p := rfl
@[simp] theorem goto_status (p : Phase) : (s.goto p).status = s.status := rfl
@[simp] theorem goto_faultInfo (p : Phase) : (s.goto p).faultInfo = s.faultInfo := rfl
@[simp] theorem goto_operands (p : Phase) : (s.goto p).operands = s.operands := rfl
@[simp] theorem goto_work (p : Phase) : (s.goto p).work = s.work := rfl
@[simp] theorem goto_port (p : Phase) : (s.goto p).port = s.port := rfl
@[simp] theorem goto_winMapped (p : Phase) : (s.goto p).winMapped = s.winMapped := rfl
@[simp] theorem goto_image (p : Phase) : (s.goto p).image = s.image := rfl
@[simp] theorem goto_window (p : Phase) : (s.goto p).window = s.window := rfl
@[simp] theorem goto_trace (p : Phase) : (s.goto p).trace = s.trace := rfl
@[simp] theorem goto_device (p : Phase) : (s.goto p).device = s.device := rfl
@[simp] theorem goto_draws (p : Phase) : (s.goto p).draws = s.draws := rfl
@[simp] theorem goto_inputs (p : Phase) : (s.goto p).inputs = s.inputs := rfl

/-! `record` -/

@[simp] theorem record_cfg (e : BusEvent) : (s.record e).cfg = s.cfg := rfl
@[simp] theorem record_phase (e : BusEvent) : (s.record e).phase = s.phase := rfl
@[simp] theorem record_status (e : BusEvent) : (s.record e).status = s.status := rfl
@[simp] theorem record_faultInfo (e : BusEvent) : (s.record e).faultInfo = s.faultInfo := rfl
@[simp] theorem record_operands (e : BusEvent) : (s.record e).operands = s.operands := rfl
@[simp] theorem record_work (e : BusEvent) : (s.record e).work = s.work := rfl
@[simp] theorem record_port (e : BusEvent) : (s.record e).port = s.port := rfl
@[simp] theorem record_winMapped (e : BusEvent) : (s.record e).winMapped = s.winMapped := rfl
@[simp] theorem record_image (e : BusEvent) : (s.record e).image = s.image := rfl
@[simp] theorem record_window (e : BusEvent) : (s.record e).window = s.window := rfl
@[simp] theorem record_trace (e : BusEvent) : (s.record e).trace = e :: s.trace := rfl
@[simp] theorem record_device (e : BusEvent) : (s.record e).device = s.device := rfl
@[simp] theorem record_draws (e : BusEvent) : (s.record e).draws = s.draws := rfl
@[simp] theorem record_inputs (e : BusEvent) : (s.record e).inputs = s.inputs := rfl

/-! `answered` -/

@[simp] theorem answered_cfg : (s.answered).cfg = s.cfg := rfl
@[simp] theorem answered_phase : (s.answered).phase = s.phase := rfl
@[simp] theorem answered_status : (s.answered).status = s.status := rfl
@[simp] theorem answered_faultInfo : (s.answered).faultInfo = s.faultInfo := rfl
@[simp] theorem answered_operands : (s.answered).operands = s.operands := rfl
@[simp] theorem answered_work : (s.answered).work = s.work := rfl
@[simp] theorem answered_port : (s.answered).port = s.port := rfl
@[simp] theorem answered_winMapped : (s.answered).winMapped = s.winMapped := rfl
@[simp] theorem answered_image : (s.answered).image = s.image := rfl
@[simp] theorem answered_window : (s.answered).window = s.window := rfl
@[simp] theorem answered_trace : (s.answered).trace = s.trace := rfl
@[simp] theorem answered_device : (s.answered).device = s.device.pop := rfl
@[simp] theorem answered_draws : (s.answered).draws = s.draws := rfl
@[simp] theorem answered_inputs : (s.answered).inputs = s.inputs := rfl

/-! `wrote` -/

@[simp] theorem wrote_cfg (a : Nat) (v : Word) : (s.wrote a v).cfg = s.cfg := rfl
@[simp] theorem wrote_phase (a : Nat) (v : Word) : (s.wrote a v).phase = s.phase := rfl
@[simp] theorem wrote_status (a : Nat) (v : Word) : (s.wrote a v).status = s.status := rfl
@[simp] theorem wrote_faultInfo (a : Nat) (v : Word) : (s.wrote a v).faultInfo = s.faultInfo := rfl
@[simp] theorem wrote_operands (a : Nat) (v : Word) : (s.wrote a v).operands = s.operands := rfl
@[simp] theorem wrote_work (a : Nat) (v : Word) : (s.wrote a v).work = s.work := rfl
@[simp] theorem wrote_port (a : Nat) (v : Word) : (s.wrote a v).port = s.port := rfl
@[simp] theorem wrote_winMapped (a : Nat) (v : Word) : (s.wrote a v).winMapped = s.winMapped := rfl
@[simp] theorem wrote_image (a : Nat) (v : Word) : (s.wrote a v).image = s.image := rfl
@[simp] theorem wrote_window (a : Nat) (v : Word) : (s.wrote a v).window = s.window.writeWord a v := rfl
@[simp] theorem wrote_trace (a : Nat) (v : Word) : (s.wrote a v).trace = .write a v :: s.trace := rfl
@[simp] theorem wrote_device (a : Nat) (v : Word) : (s.wrote a v).device = s.device := rfl
@[simp] theorem wrote_draws (a : Nat) (v : Word) : (s.wrote a v).draws = s.draws := rfl
@[simp] theorem wrote_inputs (a : Nat) (v : Word) : (s.wrote a v).inputs = s.inputs := rfl

/-! `finish` -/

@[simp] theorem finish_cfg (o : CmdOutcome) : (s.finish o).cfg = s.cfg := rfl
@[simp] theorem finish_phase (o : CmdOutcome) : (s.finish o).phase = .idle := rfl
@[simp] theorem finish_status (o : CmdOutcome) :
    (s.finish o).status = { s.status with outcome := o, busy := false } := rfl
@[simp] theorem finish_faultInfo (o : CmdOutcome) : (s.finish o).faultInfo = s.faultInfo := rfl
@[simp] theorem finish_operands (o : CmdOutcome) : (s.finish o).operands = s.operands := rfl
@[simp] theorem finish_work (o : CmdOutcome) : (s.finish o).work = s.work := rfl
@[simp] theorem finish_port (o : CmdOutcome) : (s.finish o).port = s.port := rfl
@[simp] theorem finish_winMapped (o : CmdOutcome) : (s.finish o).winMapped = s.winMapped := rfl
@[simp] theorem finish_image (o : CmdOutcome) : (s.finish o).image = s.image := rfl
@[simp] theorem finish_window (o : CmdOutcome) : (s.finish o).window = s.window := rfl
@[simp] theorem finish_trace (o : CmdOutcome) : (s.finish o).trace = s.trace := rfl
@[simp] theorem finish_device (o : CmdOutcome) : (s.finish o).device = s.device := rfl
@[simp] theorem finish_draws (o : CmdOutcome) : (s.finish o).draws = s.draws := rfl
@[simp] theorem finish_inputs (o : CmdOutcome) : (s.finish o).inputs = s.inputs := rfl

/-! `raiseFault` -/

@[simp] theorem raiseFault_cfg (c : FaultCause) (i : Word) : (s.raiseFault c i).cfg = s.cfg := rfl
@[simp] theorem raiseFault_phase (c : FaultCause) (i : Word) : (s.raiseFault c i).phase = .fault := rfl
@[simp] theorem raiseFault_status (c : FaultCause) (i : Word) :
    (s.raiseFault c i).status = { s.status with fault := true } := rfl
@[simp] theorem raiseFault_faultInfo (c : FaultCause) (i : Word) : (s.raiseFault c i).faultInfo = ⟨c, i⟩ := rfl
@[simp] theorem raiseFault_operands (c : FaultCause) (i : Word) : (s.raiseFault c i).operands = s.operands := rfl
@[simp] theorem raiseFault_work (c : FaultCause) (i : Word) : (s.raiseFault c i).work = s.work := rfl
@[simp] theorem raiseFault_port (c : FaultCause) (i : Word) : (s.raiseFault c i).port = s.port := rfl
@[simp] theorem raiseFault_winMapped (c : FaultCause) (i : Word) : (s.raiseFault c i).winMapped = s.winMapped := rfl
@[simp] theorem raiseFault_image (c : FaultCause) (i : Word) : (s.raiseFault c i).image = s.image := rfl
@[simp] theorem raiseFault_window (c : FaultCause) (i : Word) : (s.raiseFault c i).window = s.window := rfl
@[simp] theorem raiseFault_trace (c : FaultCause) (i : Word) : (s.raiseFault c i).trace = s.trace := rfl
@[simp] theorem raiseFault_device (c : FaultCause) (i : Word) : (s.raiseFault c i).device = s.device := rfl
@[simp] theorem raiseFault_draws (c : FaultCause) (i : Word) : (s.raiseFault c i).draws = s.draws := rfl
@[simp] theorem raiseFault_inputs (c : FaultCause) (i : Word) : (s.raiseFault c i).inputs = s.inputs := rfl

/-! `accept` -/

@[simp] theorem accept_cfg (i : Instr) (p : Phase) (l : Operands) : (s.accept i p l).cfg = s.cfg := rfl
@[simp] theorem accept_phase (i : Instr) (p : Phase) (l : Operands) : (s.accept i p l).phase = p := rfl
@[simp] theorem accept_status (i : Instr) (p : Phase) (l : Operands) :
    (s.accept i p l).status = { s.status with busy := true, ovr := false, outcome := .none } := rfl
@[simp] theorem accept_faultInfo (i : Instr) (p : Phase) (l : Operands) :
    (s.accept i p l).faultInfo = s.faultInfo := rfl
@[simp] theorem accept_operands (i : Instr) (p : Phase) (l : Operands) :
    (s.accept i p l).operands = { l with opc := i.opcode, winValid := s.winMapped } := rfl
@[simp] theorem accept_work (i : Instr) (p : Phase) (l : Operands) : (s.accept i p l).work = Working.empty := rfl
@[simp] theorem accept_port (i : Instr) (p : Phase) (l : Operands) : (s.accept i p l).port = s.port := rfl
@[simp] theorem accept_winMapped (i : Instr) (p : Phase) (l : Operands) :
    (s.accept i p l).winMapped = s.winMapped := rfl
@[simp] theorem accept_image (i : Instr) (p : Phase) (l : Operands) : (s.accept i p l).image = s.image := rfl
@[simp] theorem accept_window (i : Instr) (p : Phase) (l : Operands) : (s.accept i p l).window = s.window := rfl
@[simp] theorem accept_trace (i : Instr) (p : Phase) (l : Operands) : (s.accept i p l).trace = s.trace := rfl
@[simp] theorem accept_device (i : Instr) (p : Phase) (l : Operands) : (s.accept i p l).device = s.device := rfl
@[simp] theorem accept_draws (i : Instr) (p : Phase) (l : Operands) : (s.accept i p l).draws = s.draws := rfl
@[simp] theorem accept_inputs (i : Instr) (p : Phase) (l : Operands) : (s.accept i p l).inputs = s.inputs := rfl

/-! `drop` -/

@[simp] theorem drop_cfg : (s.drop).cfg = s.cfg := rfl
@[simp] theorem drop_phase : (s.drop).phase = s.phase := rfl
@[simp] theorem drop_status : (s.drop).status = { s.status with ovr := true } := rfl
@[simp] theorem drop_faultInfo : (s.drop).faultInfo = s.faultInfo := rfl
@[simp] theorem drop_operands : (s.drop).operands = s.operands := rfl
@[simp] theorem drop_work : (s.drop).work = s.work := rfl
@[simp] theorem drop_port : (s.drop).port = s.port := rfl
@[simp] theorem drop_winMapped : (s.drop).winMapped = s.winMapped := rfl
@[simp] theorem drop_image : (s.drop).image = s.image := rfl
@[simp] theorem drop_window : (s.drop).window = s.window := rfl
@[simp] theorem drop_trace : (s.drop).trace = s.trace := rfl
@[simp] theorem drop_device : (s.drop).device = s.device := rfl
@[simp] theorem drop_draws : (s.drop).draws = s.draws := rfl
@[simp] theorem drop_inputs : (s.drop).inputs = s.inputs := rfl

/-! `refuse` -/

@[simp] theorem refuse_cfg : (s.refuse).cfg = s.cfg := rfl
@[simp] theorem refuse_phase : (s.refuse).phase = s.phase := rfl
@[simp] theorem refuse_status : (s.refuse).status = { s.status with outcome := .cmdRefused } := rfl
@[simp] theorem refuse_faultInfo : (s.refuse).faultInfo = s.faultInfo := rfl
@[simp] theorem refuse_operands : (s.refuse).operands = s.operands := rfl
@[simp] theorem refuse_work : (s.refuse).work = s.work := rfl
@[simp] theorem refuse_port : (s.refuse).port = s.port := rfl
@[simp] theorem refuse_winMapped : (s.refuse).winMapped = s.winMapped := rfl
@[simp] theorem refuse_image : (s.refuse).image = s.image := rfl
@[simp] theorem refuse_window : (s.refuse).window = s.window := rfl
@[simp] theorem refuse_trace : (s.refuse).trace = s.trace := rfl
@[simp] theorem refuse_device : (s.refuse).device = s.device := rfl
@[simp] theorem refuse_draws : (s.refuse).draws = s.draws := rfl
@[simp] theorem refuse_inputs : (s.refuse).inputs = s.inputs := rfl

/-! `resetSequencer` -/

@[simp] theorem resetSequencer_cfg : (s.resetSequencer).cfg = s.cfg := rfl
@[simp] theorem resetSequencer_phase : (s.resetSequencer).phase = .idle := rfl
@[simp] theorem resetSequencer_status : (s.resetSequencer).status = Status.reset := rfl
@[simp] theorem resetSequencer_faultInfo : (s.resetSequencer).faultInfo = FaultInfo.reset := rfl
@[simp] theorem resetSequencer_operands : (s.resetSequencer).operands = Operands.reset := rfl
@[simp] theorem resetSequencer_work : (s.resetSequencer).work = Working.empty := rfl
@[simp] theorem resetSequencer_port : (s.resetSequencer).port = HostPort.reset := rfl
@[simp] theorem resetSequencer_winMapped : (s.resetSequencer).winMapped = s.winMapped := rfl
@[simp] theorem resetSequencer_image : (s.resetSequencer).image = s.image := rfl
@[simp] theorem resetSequencer_window : (s.resetSequencer).window = s.window := rfl
@[simp] theorem resetSequencer_trace : (s.resetSequencer).trace = s.trace := rfl
@[simp] theorem resetSequencer_device : (s.resetSequencer).device = s.device := rfl
@[simp] theorem resetSequencer_draws : (s.resetSequencer).draws = s.draws := rfl
@[simp] theorem resetSequencer_inputs : (s.resetSequencer).inputs = s.inputs := rfl

/-! `setActive` -/

@[simp] theorem setActive_cfg (b : Bool) : (s.setActive b).cfg = s.cfg := rfl
@[simp] theorem setActive_phase (b : Bool) : (s.setActive b).phase = s.phase := rfl
@[simp] theorem setActive_status (b : Bool) : (s.setActive b).status = { s.status with active := b } := rfl
@[simp] theorem setActive_faultInfo (b : Bool) : (s.setActive b).faultInfo = s.faultInfo := rfl
@[simp] theorem setActive_operands (b : Bool) : (s.setActive b).operands = s.operands := rfl
@[simp] theorem setActive_work (b : Bool) : (s.setActive b).work = s.work := rfl
@[simp] theorem setActive_port (b : Bool) : (s.setActive b).port = s.port := rfl
@[simp] theorem setActive_winMapped (b : Bool) : (s.setActive b).winMapped = s.winMapped := rfl
@[simp] theorem setActive_image (b : Bool) : (s.setActive b).image = s.image := rfl
@[simp] theorem setActive_window (b : Bool) : (s.setActive b).window = s.window := rfl
@[simp] theorem setActive_trace (b : Bool) : (s.setActive b).trace = s.trace := rfl
@[simp] theorem setActive_device (b : Bool) : (s.setActive b).device = s.device := rfl
@[simp] theorem setActive_draws (b : Bool) : (s.setActive b).draws = s.draws := rfl
@[simp] theorem setActive_inputs (b : Bool) : (s.setActive b).inputs = s.inputs := rfl

/-! `setRdata` -/

@[simp] theorem setRdata_cfg (b : Byte) : (s.setRdata b).cfg = s.cfg := rfl
@[simp] theorem setRdata_phase (b : Byte) : (s.setRdata b).phase = s.phase := rfl
@[simp] theorem setRdata_status (b : Byte) : (s.setRdata b).status = { s.status with rdata := b } := rfl
@[simp] theorem setRdata_faultInfo (b : Byte) : (s.setRdata b).faultInfo = s.faultInfo := rfl
@[simp] theorem setRdata_operands (b : Byte) : (s.setRdata b).operands = s.operands := rfl
@[simp] theorem setRdata_work (b : Byte) : (s.setRdata b).work = s.work := rfl
@[simp] theorem setRdata_port (b : Byte) : (s.setRdata b).port = s.port := rfl
@[simp] theorem setRdata_winMapped (b : Byte) : (s.setRdata b).winMapped = s.winMapped := rfl
@[simp] theorem setRdata_image (b : Byte) : (s.setRdata b).image = s.image := rfl
@[simp] theorem setRdata_window (b : Byte) : (s.setRdata b).window = s.window := rfl
@[simp] theorem setRdata_trace (b : Byte) : (s.setRdata b).trace = s.trace := rfl
@[simp] theorem setRdata_device (b : Byte) : (s.setRdata b).device = s.device := rfl
@[simp] theorem setRdata_draws (b : Byte) : (s.setRdata b).draws = s.draws := rfl
@[simp] theorem setRdata_inputs (b : Byte) : (s.setRdata b).inputs = s.inputs := rfl

/-! `drawn` -/

@[simp] theorem drawn_cfg (c : Nat) : (s.drawn c).cfg = s.cfg := rfl
@[simp] theorem drawn_phase (c : Nat) : (s.drawn c).phase = s.phase := rfl
@[simp] theorem drawn_status (c : Nat) : (s.drawn c).status = s.status := rfl
@[simp] theorem drawn_faultInfo (c : Nat) : (s.drawn c).faultInfo = s.faultInfo := rfl
@[simp] theorem drawn_operands (c : Nat) : (s.drawn c).operands = s.operands := rfl
@[simp] theorem drawn_work (c : Nat) : (s.drawn c).work = s.work := rfl
@[simp] theorem drawn_port (c : Nat) : (s.drawn c).port = s.port := rfl
@[simp] theorem drawn_winMapped (c : Nat) : (s.drawn c).winMapped = s.winMapped := rfl
@[simp] theorem drawn_image (c : Nat) : (s.drawn c).image = s.image := rfl
@[simp] theorem drawn_window (c : Nat) : (s.drawn c).window = s.window := rfl
@[simp] theorem drawn_trace (c : Nat) : (s.drawn c).trace = s.trace := rfl
@[simp] theorem drawn_device (c : Nat) : (s.drawn c).device = s.device := rfl
@[simp] theorem drawn_draws (c : Nat) : (s.drawn c).draws = s.draws + c := rfl
@[simp] theorem drawn_inputs (c : Nat) : (s.drawn c).inputs = s.inputs := rfl

/-! `writePort` -/

@[simp] theorem writePort_cfg (w : OperandWrite) : (s.writePort w).cfg = s.cfg := rfl
@[simp] theorem writePort_phase (w : OperandWrite) : (s.writePort w).phase = s.phase := rfl
@[simp] theorem writePort_status (w : OperandWrite) : (s.writePort w).status = s.status := rfl
@[simp] theorem writePort_faultInfo (w : OperandWrite) : (s.writePort w).faultInfo = s.faultInfo := rfl
@[simp] theorem writePort_operands (w : OperandWrite) : (s.writePort w).operands = s.operands := rfl
@[simp] theorem writePort_work (w : OperandWrite) : (s.writePort w).work = s.work := rfl
@[simp] theorem writePort_port (w : OperandWrite) : (s.writePort w).port = s.port.write w := rfl
@[simp] theorem writePort_winMapped (w : OperandWrite) : (s.writePort w).winMapped = s.winMapped := rfl
@[simp] theorem writePort_image (w : OperandWrite) : (s.writePort w).image = s.image := rfl
@[simp] theorem writePort_window (w : OperandWrite) : (s.writePort w).window = s.window := rfl
@[simp] theorem writePort_trace (w : OperandWrite) : (s.writePort w).trace = s.trace := rfl
@[simp] theorem writePort_device (w : OperandWrite) : (s.writePort w).device = s.device := rfl
@[simp] theorem writePort_draws (w : OperandWrite) : (s.writePort w).draws = s.draws := rfl
@[simp] theorem writePort_inputs (w : OperandWrite) : (s.writePort w).inputs = s.inputs := rfl

/-! `setN` -/

@[simp] theorem setN_cfg (v : Nat) : (s.setN v).cfg = s.cfg := rfl
@[simp] theorem setN_phase (v : Nat) : (s.setN v).phase = s.phase := rfl
@[simp] theorem setN_status (v : Nat) : (s.setN v).status = s.status := rfl
@[simp] theorem setN_faultInfo (v : Nat) : (s.setN v).faultInfo = s.faultInfo := rfl
@[simp] theorem setN_operands (v : Nat) : (s.setN v).operands = s.operands := rfl
@[simp] theorem setN_work (v : Nat) : (s.setN v).work = { s.work with n := some v } := rfl
@[simp] theorem setN_port (v : Nat) : (s.setN v).port = s.port := rfl
@[simp] theorem setN_winMapped (v : Nat) : (s.setN v).winMapped = s.winMapped := rfl
@[simp] theorem setN_image (v : Nat) : (s.setN v).image = s.image := rfl
@[simp] theorem setN_window (v : Nat) : (s.setN v).window = s.window := rfl
@[simp] theorem setN_trace (v : Nat) : (s.setN v).trace = s.trace := rfl
@[simp] theorem setN_device (v : Nat) : (s.setN v).device = s.device := rfl
@[simp] theorem setN_draws (v : Nat) : (s.setN v).draws = s.draws := rfl
@[simp] theorem setN_inputs (v : Nat) : (s.setN v).inputs = s.inputs := rfl

/-! `setJ` -/

@[simp] theorem setJ_cfg (v : Nat) : (s.setJ v).cfg = s.cfg := rfl
@[simp] theorem setJ_phase (v : Nat) : (s.setJ v).phase = s.phase := rfl
@[simp] theorem setJ_status (v : Nat) : (s.setJ v).status = s.status := rfl
@[simp] theorem setJ_faultInfo (v : Nat) : (s.setJ v).faultInfo = s.faultInfo := rfl
@[simp] theorem setJ_operands (v : Nat) : (s.setJ v).operands = s.operands := rfl
@[simp] theorem setJ_work (v : Nat) : (s.setJ v).work = { s.work with j := some v } := rfl
@[simp] theorem setJ_port (v : Nat) : (s.setJ v).port = s.port := rfl
@[simp] theorem setJ_winMapped (v : Nat) : (s.setJ v).winMapped = s.winMapped := rfl
@[simp] theorem setJ_image (v : Nat) : (s.setJ v).image = s.image := rfl
@[simp] theorem setJ_window (v : Nat) : (s.setJ v).window = s.window := rfl
@[simp] theorem setJ_trace (v : Nat) : (s.setJ v).trace = s.trace := rfl
@[simp] theorem setJ_device (v : Nat) : (s.setJ v).device = s.device := rfl
@[simp] theorem setJ_draws (v : Nat) : (s.setJ v).draws = s.draws := rfl
@[simp] theorem setJ_inputs (v : Nat) : (s.setJ v).inputs = s.inputs := rfl

/-! `setK` -/

@[simp] theorem setK_cfg (v : Nat) : (s.setK v).cfg = s.cfg := rfl
@[simp] theorem setK_phase (v : Nat) : (s.setK v).phase = s.phase := rfl
@[simp] theorem setK_status (v : Nat) : (s.setK v).status = s.status := rfl
@[simp] theorem setK_faultInfo (v : Nat) : (s.setK v).faultInfo = s.faultInfo := rfl
@[simp] theorem setK_operands (v : Nat) : (s.setK v).operands = s.operands := rfl
@[simp] theorem setK_work (v : Nat) : (s.setK v).work = { s.work with k := some v } := rfl
@[simp] theorem setK_port (v : Nat) : (s.setK v).port = s.port := rfl
@[simp] theorem setK_winMapped (v : Nat) : (s.setK v).winMapped = s.winMapped := rfl
@[simp] theorem setK_image (v : Nat) : (s.setK v).image = s.image := rfl
@[simp] theorem setK_window (v : Nat) : (s.setK v).window = s.window := rfl
@[simp] theorem setK_trace (v : Nat) : (s.setK v).trace = s.trace := rfl
@[simp] theorem setK_device (v : Nat) : (s.setK v).device = s.device := rfl
@[simp] theorem setK_draws (v : Nat) : (s.setK v).draws = s.draws := rfl
@[simp] theorem setK_inputs (v : Nat) : (s.setK v).inputs = s.inputs := rfl

/-! `setPcCnt` -/

@[simp] theorem setPcCnt_cfg (v : Nat) : (s.setPcCnt v).cfg = s.cfg := rfl
@[simp] theorem setPcCnt_phase (v : Nat) : (s.setPcCnt v).phase = s.phase := rfl
@[simp] theorem setPcCnt_status (v : Nat) : (s.setPcCnt v).status = s.status := rfl
@[simp] theorem setPcCnt_faultInfo (v : Nat) : (s.setPcCnt v).faultInfo = s.faultInfo := rfl
@[simp] theorem setPcCnt_operands (v : Nat) : (s.setPcCnt v).operands = s.operands := rfl
@[simp] theorem setPcCnt_work (v : Nat) : (s.setPcCnt v).work = { s.work with pcCnt := some v } := rfl
@[simp] theorem setPcCnt_port (v : Nat) : (s.setPcCnt v).port = s.port := rfl
@[simp] theorem setPcCnt_winMapped (v : Nat) : (s.setPcCnt v).winMapped = s.winMapped := rfl
@[simp] theorem setPcCnt_image (v : Nat) : (s.setPcCnt v).image = s.image := rfl
@[simp] theorem setPcCnt_window (v : Nat) : (s.setPcCnt v).window = s.window := rfl
@[simp] theorem setPcCnt_trace (v : Nat) : (s.setPcCnt v).trace = s.trace := rfl
@[simp] theorem setPcCnt_device (v : Nat) : (s.setPcCnt v).device = s.device := rfl
@[simp] theorem setPcCnt_draws (v : Nat) : (s.setPcCnt v).draws = s.draws := rfl
@[simp] theorem setPcCnt_inputs (v : Nat) : (s.setPcCnt v).inputs = s.inputs := rfl

/-! `setRd` -/

@[simp] theorem setRd_cfg (v : Word) : (s.setRd v).cfg = s.cfg := rfl
@[simp] theorem setRd_phase (v : Word) : (s.setRd v).phase = s.phase := rfl
@[simp] theorem setRd_status (v : Word) : (s.setRd v).status = s.status := rfl
@[simp] theorem setRd_faultInfo (v : Word) : (s.setRd v).faultInfo = s.faultInfo := rfl
@[simp] theorem setRd_operands (v : Word) : (s.setRd v).operands = s.operands := rfl
@[simp] theorem setRd_work (v : Word) : (s.setRd v).work = { s.work with rd := some v } := rfl
@[simp] theorem setRd_port (v : Word) : (s.setRd v).port = s.port := rfl
@[simp] theorem setRd_winMapped (v : Word) : (s.setRd v).winMapped = s.winMapped := rfl
@[simp] theorem setRd_image (v : Word) : (s.setRd v).image = s.image := rfl
@[simp] theorem setRd_window (v : Word) : (s.setRd v).window = s.window := rfl
@[simp] theorem setRd_trace (v : Word) : (s.setRd v).trace = s.trace := rfl
@[simp] theorem setRd_device (v : Word) : (s.setRd v).device = s.device := rfl
@[simp] theorem setRd_draws (v : Word) : (s.setRd v).draws = s.draws := rfl
@[simp] theorem setRd_inputs (v : Word) : (s.setRd v).inputs = s.inputs := rfl

/-! `setTup` -/

@[simp] theorem setTup_cfg (v : Tuple) : (s.setTup v).cfg = s.cfg := rfl
@[simp] theorem setTup_phase (v : Tuple) : (s.setTup v).phase = s.phase := rfl
@[simp] theorem setTup_status (v : Tuple) : (s.setTup v).status = s.status := rfl
@[simp] theorem setTup_faultInfo (v : Tuple) : (s.setTup v).faultInfo = s.faultInfo := rfl
@[simp] theorem setTup_operands (v : Tuple) : (s.setTup v).operands = s.operands := rfl
@[simp] theorem setTup_work (v : Tuple) : (s.setTup v).work = { s.work with tup := some v } := rfl
@[simp] theorem setTup_port (v : Tuple) : (s.setTup v).port = s.port := rfl
@[simp] theorem setTup_winMapped (v : Tuple) : (s.setTup v).winMapped = s.winMapped := rfl
@[simp] theorem setTup_image (v : Tuple) : (s.setTup v).image = s.image := rfl
@[simp] theorem setTup_window (v : Tuple) : (s.setTup v).window = s.window := rfl
@[simp] theorem setTup_trace (v : Tuple) : (s.setTup v).trace = s.trace := rfl
@[simp] theorem setTup_device (v : Tuple) : (s.setTup v).device = s.device := rfl
@[simp] theorem setTup_draws (v : Tuple) : (s.setTup v).draws = s.draws := rfl
@[simp] theorem setTup_inputs (v : Tuple) : (s.setTup v).inputs = s.inputs := rfl

/-! `setRes` -/

@[simp] theorem setRes_cfg (v : CmdOutcome) : (s.setRes v).cfg = s.cfg := rfl
@[simp] theorem setRes_phase (v : CmdOutcome) : (s.setRes v).phase = s.phase := rfl
@[simp] theorem setRes_status (v : CmdOutcome) : (s.setRes v).status = s.status := rfl
@[simp] theorem setRes_faultInfo (v : CmdOutcome) : (s.setRes v).faultInfo = s.faultInfo := rfl
@[simp] theorem setRes_operands (v : CmdOutcome) : (s.setRes v).operands = s.operands := rfl
@[simp] theorem setRes_work (v : CmdOutcome) : (s.setRes v).work = { s.work with res := some v } := rfl
@[simp] theorem setRes_port (v : CmdOutcome) : (s.setRes v).port = s.port := rfl
@[simp] theorem setRes_winMapped (v : CmdOutcome) : (s.setRes v).winMapped = s.winMapped := rfl
@[simp] theorem setRes_image (v : CmdOutcome) : (s.setRes v).image = s.image := rfl
@[simp] theorem setRes_window (v : CmdOutcome) : (s.setRes v).window = s.window := rfl
@[simp] theorem setRes_trace (v : CmdOutcome) : (s.setRes v).trace = s.trace := rfl
@[simp] theorem setRes_device (v : CmdOutcome) : (s.setRes v).device = s.device := rfl
@[simp] theorem setRes_draws (v : CmdOutcome) : (s.setRes v).draws = s.draws := rfl
@[simp] theorem setRes_inputs (v : CmdOutcome) : (s.setRes v).inputs = s.inputs := rfl

/-! `setRb` -/

@[simp] theorem setRb_cfg (v : ActWrite) : (s.setRb v).cfg = s.cfg := rfl
@[simp] theorem setRb_phase (v : ActWrite) : (s.setRb v).phase = s.phase := rfl
@[simp] theorem setRb_status (v : ActWrite) : (s.setRb v).status = s.status := rfl
@[simp] theorem setRb_faultInfo (v : ActWrite) : (s.setRb v).faultInfo = s.faultInfo := rfl
@[simp] theorem setRb_operands (v : ActWrite) : (s.setRb v).operands = s.operands := rfl
@[simp] theorem setRb_work (v : ActWrite) : (s.setRb v).work = { s.work with rb := some v } := rfl
@[simp] theorem setRb_port (v : ActWrite) : (s.setRb v).port = s.port := rfl
@[simp] theorem setRb_winMapped (v : ActWrite) : (s.setRb v).winMapped = s.winMapped := rfl
@[simp] theorem setRb_image (v : ActWrite) : (s.setRb v).image = s.image := rfl
@[simp] theorem setRb_window (v : ActWrite) : (s.setRb v).window = s.window := rfl
@[simp] theorem setRb_trace (v : ActWrite) : (s.setRb v).trace = s.trace := rfl
@[simp] theorem setRb_device (v : ActWrite) : (s.setRb v).device = s.device := rfl
@[simp] theorem setRb_draws (v : ActWrite) : (s.setRb v).draws = s.draws := rfl
@[simp] theorem setRb_inputs (v : ActWrite) : (s.setRb v).inputs = s.inputs := rfl

end Sys2Proof.Machine.State
end

