-- ==== Sys2Proof/Laws/Ops.lean ====
section
/-! SUPPORT. What each shared operation can do, said once: an elimination lemma for claims about every case, and one
equation for each case. -/

namespace Sys2Proof.Machine

open Sys2Proof

/-! ### Working registers and the window check -/

/-- A read of a working register goes on with its value, or is the fault of R28. -/
theorem need_elim {α : Type} {P : StepResult → Prop} {r : WorkReg} {v : Option α} {k : α → StepResult}
    (unwritten : v = none → P (.fault (.unwritten r))) (written : ∀ x, v = some x → P (k x)) : P (need r v k) := by
  cases v with
  | none => exact unwritten rfl
  | some x => exact written x rfl

@[simp] theorem need_some {α : Type} (r : WorkReg) (x : α) (k : α → StepResult) : need r (some x) k = k x := rfl

@[simp] theorem need_none {α : Type} (r : WorkReg) (k : α → StepResult) :
    need r (none : Option α) k = .fault (.unwritten r) := rfl

/-- The window check goes on, or raises `WINDOW_UNMAPPED` (R237). -/
theorem withWindow_elim {P : StepResult → Prop} {opc : BitVec 4} {k : State → StepResult} {s : State}
    (unmapped : s.operands.winValid = false → P (.next (s.raiseFault .windowUnmapped (opc.setWidth 32))))
    (mapped : s.operands.winValid = true → P (k s)) : P (withWindow opc k s) := by
  unfold withWindow
  split
  · exact mapped ‹_›
  · exact unmapped (Bool.eq_false_of_not_eq_true ‹_›)

/-! ### One transaction -/

/-- Everything a transaction can do (R69, R238). -/
theorem transact_elim {P : StepResult → Prop} {a : Nat} {k : Word → State → StepResult} {s : State}
    (outside : s.cfg.winSize < a + 4 → P (.next (s.raiseFault .outOfWindow (BitVec.ofNat 32 a))))
    (error : a + 4 ≤ s.cfg.winSize → s.device.peek = .error →
      P (.next ((s.answered.record (.error a)).raiseFault .busError (BitVec.ofNat 32 a))))
    (silent : a + 4 ≤ s.cfg.winSize → s.device.peek = .silent → P (.next s))
    (done : ∀ b0 b1 b2 b3, a + 4 ≤ s.cfg.winSize → s.device.peek = .done b0 b1 b2 b3 →
      P (k (beWord b0 b1 b2 b3) s.answered)) : P (transact a k s) := by
  unfold transact
  split
  · exact outside ‹_›
  · split
    · exact done _ _ _ _ (by omega) ‹_›
    · exact error (by omega) ‹_›
    · exact silent (by omega) ‹_›

/-- A transaction the device completes. -/
theorem transact_done {a : Nat} {k : Word → State → StepResult} {s : State} {b0 b1 b2 b3 : Byte}
    (ha : a + 4 ≤ s.cfg.winSize) (hd : s.device.peek = .done b0 b1 b2 b3) :
    transact a k s = k (beWord b0 b1 b2 b3) s.answered := by
  simp [transact, show ¬ s.cfg.winSize < a + 4 by omega, hd]

/-- A transaction answered with an error (R238). -/
theorem transact_error {a : Nat} {k : Word → State → StepResult} {s : State} (ha : a + 4 ≤ s.cfg.winSize)
    (hd : s.device.peek = .error) :
    transact a k s = .next ((s.answered.record (.error a)).raiseFault .busError (BitVec.ofNat 32 a)) := by
  simp [transact, show ¬ s.cfg.winSize < a + 4 by omega, hd]

/-- A transaction the device never completes: nothing happens (R238). -/
theorem transact_silent {a : Nat} {k : Word → State → StepResult} {s : State} (ha : a + 4 ≤ s.cfg.winSize)
    (hd : s.device.peek = .silent) : transact a k s = .next s := by
  simp [transact, show ¬ s.cfg.winSize < a + 4 by omega, hd]

/-- A transaction outside the window is not issued (R69). -/
theorem transact_outside {a : Nat} {k : Word → State → StepResult} {s : State} (ha : s.cfg.winSize < a + 4) :
    transact a k s = .next (s.raiseFault .outOfWindow (BitVec.ofNat 32 a)) := by
  simp [transact, ha]

/-- A completed write (R12, R62). -/
theorem memWrite_done {a : Nat} {v : Word} {k : State → StepResult} {s : State} {b0 b1 b2 b3 : Byte}
    (ha : a + 4 ≤ s.cfg.winSize) (hd : s.device.peek = .done b0 b1 b2 b3) :
    memWrite a v k s = k (s.answered.wrote a v) := transact_done ha hd

/-- A completed read (R12, R62). -/
theorem memRead_done {a : Nat} {k : Word → State → StepResult} {s : State} {b0 b1 b2 b3 : Byte}
    (ha : a + 4 ≤ s.cfg.winSize) (hd : s.device.peek = .done b0 b1 b2 b3) :
    memRead a k s =
      k (beWord b0 b1 b2 b3) ((s.answered.record (.read a (beWord b0 b1 b2 b3))).setRd (beWord b0 b1 b2 b3)) :=
  transact_done ha hd

/-! ### The device's answers -/

/-- An answer is consumed from the script while it lasts. -/
@[simp] theorem Device.peek_cons (r : Response) (rest : List Response) (a : Option Response) (n : Nat) :
    Device.peek ⟨r :: rest, a, n⟩ = r := rfl

/-- After the script, the lasting answer. -/
@[simp] theorem Device.peek_after (r : Response) (n : Nat) : Device.peek ⟨[], some r, n⟩ = r := rfl

@[simp] theorem Device.pop_cons (r : Response) (rest : List Response) (a : Option Response) (n : Nat) :
    Device.pop ⟨r :: rest, a, n⟩ = ⟨rest, a, n + 1⟩ := rfl

@[simp] theorem Device.pop_after (a : Option Response) (n : Nat) : Device.pop ⟨[], a, n⟩ = ⟨[], a, n + 1⟩ := rfl

end Sys2Proof.Machine
end

