-- ==== Sys2Proof/Laws/Step.lean ====
section
/-! SUPPORT. What one step is, by the head of the host's inputs. -/

namespace Sys2Proof.Machine

open Sys2Proof

/-- On a configuration a machine is built for, a step is `stepInput`. -/
theorem step_of_wf {s : State} (h : s.cfg.wf = true) : step s = stepInput s := by
  simp [step, Config.firstBroken_eq_none_iff.mpr h]

/-- Only such a configuration steps to a next state. -/
theorem wf_of_step_next {s t : State} (h : step s = .next t) : s.cfg.wf = true ∧ stepInput s = .next t := by
  unfold step at h
  split at h
  · simp at h
  · exact ⟨Config.firstBroken_eq_none_iff.mp ‹_›, h⟩

/-- With no input the sequencer goes on by itself. -/
theorem stepInput_nil {s : State} (h : s.inputs = []) : stepInput s = advance s := by simp [stepInput, h]

/-- `tick`: the sequencer goes on by itself. -/
theorem stepInput_tick {s : State} {rest : List HostInput} (h : s.inputs = .tick :: rest) :
    stepInput s = advance { s with inputs := rest } := by simp [stepInput, h, hostInput]

/-- A command word is offered. -/
theorem stepInput_offer {s : State} {cw : Word} {rest : List HostInput} (h : s.inputs = .offer cw :: rest) :
    stepInput s = offerWord cw { s with inputs := rest } := by simp [stepInput, h, hostInput]

/-- Reset is applied. -/
theorem stepInput_reset {s : State} {landed : Bool} {rest : List HostInput}
    (h : s.inputs = .reset landed :: rest) :
    stepInput s = .next (applyReset landed { s with inputs := rest }) := by simp [stepInput, h, hostInput]

end Sys2Proof.Machine
end

