-- ==== Sys2Proof/Laws/Exec.lean ====
section
/-! SUPPORT. Everything one phase of a command can do, said once, and with it everything one step can do. Claims about
the whole machine cite these and do not unfold the meanings again. -/

namespace Sys2Proof.Machine

open Sys2Proof

/-- The window after event `e`: changed by a completed write only (R62). -/
def windowAfter (m : Memory) (e : BusEvent) : Memory :=
  match e with
  | .write a v => m.writeWord a v
  | .read _ _ | .error _ | .delay _ => m

/-- What one phase of a command can change. -/
structure Effect (s t : State) : Prop where
  cfg : t.cfg = s.cfg
  port : t.port = s.port
  winMapped : t.winMapped = s.winMapped
  image : t.image = s.image
  inputs : t.inputs = s.inputs
  device : t.device = s.device ∨ t.device = s.device.pop
  event : (t.trace = s.trace ∧ t.window = s.window) ∨
    ∃ e, t.trace = e :: s.trace ∧ e.onWindow s.cfg ∧ t.window = windowAfter s.window e
  phase : t.phase = s.phase ∨ t.phase ∈ s.phase.successors
  faultInfo : t.faultInfo = s.faultInfo ∨ (s.phase ≠ .fault ∧ t.phase = .fault)
  stuck : s.phase = .fault → t.trace = s.trace ∧ t.window = s.window ∧ t.status = { s.status with ovr := true }
  rdata : t.status.rdata = s.status.rdata ∨ (s.phase = .crRd ∧ t.phase = .idle)
  active : t.status.active = s.status.active ∨ s.phase = .iaRd ∨ s.phase = .ldDet
  ovr : t.status.ovr = s.status.ovr ∨ t.status.ovr = true ∨ s.phase = .idle
  operands : t.operands = s.operands ∨ s.phase = .idle

/-- A result is sound for `s`: a next state is an `Effect`, and nothing is refused. -/
def Sound (s : State) (r : StepResult) : Prop := (∀ t, r = .next t → Effect s t) ∧ ∀ x, r ≠ .refused x

theorem Sound.next {s t : State} (h : Effect s t) : Sound s (.next t) :=
  ⟨fun _ e => by cases e; exact h, fun _ e => by cases e⟩

theorem Sound.fault (s : State) (f : Fault) : Sound s (.fault f) := ⟨fun _ e => (by cases e), fun _ e => (by cases e)⟩

/-- Nothing changed. -/
theorem Effect.refl {s : State} (h : s.phase ≠ .fault) : Effect s s where
  cfg := rfl
  port := rfl
  winMapped := rfl
  image := rfl
  inputs := rfl
  device := .inl rfl
  event := .inl ⟨rfl, rfl⟩
  phase := .inl rfl
  faultInfo := .inl rfl
  stuck := fun e => absurd e h
  rdata := .inl rfl
  active := .inl rfl
  ovr := .inl rfl
  operands := .inl rfl

theorem Effect.drop (s : State) : Effect s s.drop := by
  constructor <;> simp

/-- A fault raised before a transaction. -/
theorem Effect.raise {s : State} (h : .fault ∈ s.phase.successors) (c : FaultCause) (x : Word) :
    Effect s (s.raiseFault c x) := by
  have : s.phase ≠ .fault := by rintro e; simp [e, Phase.successors] at h
  constructor <;> simp [h, this]

/-- A transaction is sound if what follows it is, and a fault is one of the phase's successors. -/
theorem Sound.transact {s : State} {a : Nat} {k : Word → State → StepResult} (h : .fault ∈ s.phase.successors)
    (ha : a % 4 = 0) (hk : ∀ v, a + 4 ≤ s.cfg.winSize → Sound s (k v s.answered)) : Sound s (transact a k s) := by
  have hf : s.phase ≠ .fault := by rintro e; simp [e, Phase.successors] at h
  refine transact_elim (P := Sound s) (fun _ => .next (.raise h _ _)) (fun hw _ => .next ?_) (fun _ _ => .next (.refl hf))
    (fun _ _ _ _ hw _ => hk _ hw)
  constructor <;> simp [h, hf, windowAfter, BusEvent.onWindow, ha, hw]

/-- A write, likewise; what follows starts with the write recorded. -/
theorem Sound.memWrite {s : State} {a : Nat} {v : Word} {k : State → StepResult} (h : .fault ∈ s.phase.successors)
    (ha : a % 4 = 0) (hk : a + 4 ≤ s.cfg.winSize → Sound s (k (s.answered.wrote a v))) : Sound s (memWrite a v k s) :=
  Sound.transact h ha fun _ hw => hk hw

/-- A read, likewise. -/
theorem Sound.memRead {s : State} {a : Nat} {k : Word → State → StepResult} (h : .fault ∈ s.phase.successors)
    (ha : a % 4 = 0)
    (hk : ∀ v, a + 4 ≤ s.cfg.winSize → Sound s (k v ((s.answered.record (.read a v)).setRd v))) :
    Sound s (memRead a k s) := Sound.transact h ha fun v hw => hk v hw

theorem Sound.need {s : State} {α : Type} {r : WorkReg} {v : Option α} {k : α → StepResult}
    (hk : ∀ x, v = some x → Sound s (k x)) : Sound s (need r v k) :=
  need_elim (P := Sound s) (fun _ => .fault s _) hk

theorem Sound.withWindow {s : State} {opc : BitVec 4} {k : State → StepResult} (h : .fault ∈ s.phase.successors)
    (hk : Sound s (k s)) : Sound s (withWindow opc k s) :=
  withWindow_elim (P := Sound s) (fun _ => .next (.raise h _ _)) (fun _ => hk)

variable {s : State}

theorem ldr_mod (h : s.cfg.wf = true) {o : Nat} (ho : o ∈ s.cfg.loaderOffsets) : (s.cfg.ldrBase + o) % 4 = 0 :=
  (Config.loader_onWindow h ho).1

theorem csrRead_sound (s : State) : Sound s (execCsrRead s) := by
  unfold execCsrRead
  split
  next hp => apply Sound.next; constructor <;> simp [hp, Phase.successors]
  next hp =>
    refine Sound.withWindow (by simp [hp, Phase.successors]) (Sound.memRead (by simp [hp, Phase.successors]) (by simp)
      fun v hw => Sound.next ?_)
    constructor <;> simp [hp, Phase.successors, windowAfter, BusEvent.onWindow, hw]
  next => exact Sound.next (.drop s)

theorem csrWrite_sound (b : Byte) (s : State) : Sound s (execCsrWrite b s) := by
  unfold execCsrWrite
  split
  next hp => apply Sound.next; constructor <;> simp [hp, Phase.successors]
  next hp =>
    refine Sound.withWindow (by simp [hp, Phase.successors]) (Sound.memWrite (by simp [hp, Phase.successors]) (by simp)
      fun hw => Sound.next ?_)
    constructor <;> simp [hp, Phase.successors, windowAfter, BusEvent.onWindow, hw]
  next => exact Sound.next (.drop s)

theorem unlockTurn_sound (hc : s.cfg.wf = true) (hp : s.phase = .ulTrig ∨ s.phase = .ldTrig) {done : State → StepResult}
    (hd : ∀ t, (t = s ∨ ∃ j v, ldrBtrigr s.cfg + 4 ≤ s.cfg.winSize ∧
      t = (s.answered.wrote (ldrBtrigr s.cfg) v).setJ j) → Sound s (done t)) : Sound s (unlockTurn done s) := by
  have hf : .fault ∈ s.phase.successors := by rcases hp with h | h <;> simp [h, Phase.successors]
  have ha := Config.loader_onWindow hc (o := s.cfg.offBtrigr) (by simp [Config.loaderOffsets])
  refine Sound.need fun j _ => ?_
  split
  · refine Sound.memWrite hf ha.1 fun hw => ?_
    split
    · apply Sound.next
      constructor <;> simp [windowAfter, BusEvent.onWindow, ldrBtrigr, ha.1, ha.2]
      rcases hp with h | h <;> simp [h]
    · exact hd _ (.inr ⟨_, _, hw, rfl⟩)
  · exact hd _ (.inl rfl)

theorem unlock_sound (hc : s.cfg.wf = true) : Sound s (execUnlock s) := by
  have ha := Config.loader_onWindow hc (o := s.cfg.offBtrigr) (by simp [Config.loaderOffsets])
  unfold execUnlock
  split
  next hp => apply Sound.next; constructor <;> simp [hp, Phase.successors]
  next hp =>
    unfold phaseUlChk
    split <;> apply Sound.next <;> constructor <;> simp [hp, Phase.successors]
  next hp =>
    refine unlockTurn_sound hc (.inl hp) ?_
    rintro t (rfl | ⟨j, v, hw, rfl⟩) <;> apply Sound.next <;>
      constructor <;> simp [hp, Phase.successors, windowAfter, BusEvent.onWindow, ldrBtrigr, ha.1, ha.2]
  next => exact Sound.next (.drop s)

theorem isActive_sound (hc : s.cfg.wf = true) : Sound s (execIsActive s) := by
  have ha := Config.loader_onWindow hc (o := s.cfg.offIdr) (by simp [Config.loaderOffsets])
  unfold execIsActive
  split
  next hp => apply Sound.next; constructor <;> simp [hp, Phase.successors]
  next hp =>
    refine Sound.withWindow (by simp [hp, Phase.successors]) (Sound.memRead (by simp [hp, Phase.successors]) ha.1
      fun v hw => Sound.next ?_)
    constructor <;> simp [hp, Phase.successors, windowAfter, BusEvent.onWindow, ldrIdr, ha.1, ha.2]
  next => exact Sound.next (.drop s)

theorem pollAgain_sound {a : Nat} {v : Word} (ha : a % 4 = 0) (hw : a + 4 ≤ s.cfg.winSize)
    (hp : s.phase = .ldPollf ∨ s.phase = .ldPolld) :
    Sound s (pollAgain ((s.answered.record (.read a v)).setRd v)) := by
  refine Sound.need fun cnt _ => ?_
  split <;> apply Sound.next <;> constructor <;>
    rcases hp with h | h <;> simp [h, Phase.successors, windowAfter, BusEvent.onWindow, ha, hw]

theorem load_sound (hc : s.cfg.wf = true) : Sound s (execLoad s) := by
  have on : ∀ {o}, o ∈ s.cfg.loaderOffsets → _ := fun ho => Config.loader_onWindow hc ho
  have hB := on (o := s.cfg.offBtrigr) (by simp [Config.loaderOffsets])
  have hI := on (o := s.cfg.offIdr) (by simp [Config.loaderOffsets])
  have hC := on (o := s.cfg.offCsr) (by simp [Config.loaderOffsets])
  have hS := on (o := s.cfg.offFifoCsr) (by simp [Config.loaderOffsets])
  have h0 := on (o := s.cfg.offFifoR0) (by simp [Config.loaderOffsets])
  have h1 := on (o := s.cfg.offFifoR1) (by simp [Config.loaderOffsets])
  unfold execLoad
  split
  next hp => apply Sound.next; constructor <;> simp [hp, Phase.successors]
  next hp =>
    unfold phaseLdChk
    split
    · apply Sound.next; constructor <;> simp [hp, Phase.successors]
    · split <;> apply Sound.next <;> constructor <;> simp [hp, Phase.successors]
  next hp =>
    refine unlockTurn_sound hc (.inr hp) ?_
    rintro t (rfl | ⟨j, v, hw, rfl⟩) <;> apply Sound.next <;>
      constructor <;> simp [hp, Phase.successors, windowAfter, BusEvent.onWindow, ldrBtrigr, hB.1, hB.2]
  next hp =>
    unfold phaseLdDet readActive
    refine Sound.memRead (by simp [hp, Phase.successors]) hI.1 fun v hw => ?_
    dsimp only
    split <;> apply Sound.next <;>
      constructor <;> simp [hp, Phase.successors, windowAfter, BusEvent.onWindow, ldrIdr, hI.1, hI.2]
  next hp =>
    refine Sound.memWrite (by simp [hp, Phase.successors]) hC.1 fun hw => Sound.next ?_
    constructor <;> simp [hp, Phase.successors, windowAfter, BusEvent.onWindow, ldrCsr, hC.1, hC.2]
  next hp =>
    refine Sound.memWrite (by simp [hp, Phase.successors]) hC.1 fun hw => Sound.next ?_
    constructor <;> simp [hp, Phase.successors, windowAfter, BusEvent.onWindow, ldrCsr, hC.1, hC.2]
  next hp =>
    refine Sound.need fun n _ => ?_
    split
    · apply Sound.next; constructor <;> simp [hp, Phase.successors]
    · refine Sound.memRead (by simp [hp, Phase.successors]) hS.1 fun v hw => ?_
      split
      · exact pollAgain_sound hS.1 hw (.inl hp)
      · apply Sound.next
        constructor <;> simp [hp, Phase.successors, windowAfter, BusEvent.onWindow, ldrFifoCsr, hS.1, hS.2]
  next hp =>
    refine Sound.need fun n _ => Sound.memWrite (by simp [hp, Phase.successors]) h0.1 fun hw => Sound.next ?_
    constructor <;> simp [hp, Phase.successors, windowAfter, BusEvent.onWindow, ldrFifoR0, h0.1, h0.2]
  next hp =>
    refine Sound.need fun n _ => Sound.memWrite (by simp [hp, Phase.successors]) h1.1 fun hw => Sound.next ?_
    constructor <;> simp [hp, Phase.successors, windowAfter, BusEvent.onWindow, ldrFifoR1, h1.1, h1.2]
  next hp =>
    refine Sound.memRead (by simp [hp, Phase.successors]) hC.1 fun v hw => ?_
    split
    · apply Sound.next
      constructor <;> simp [hp, Phase.successors, windowAfter, BusEvent.onWindow, ldrCsr, hC.1, hC.2]
    · exact pollAgain_sound hC.1 hw (.inr hp)
  next hp =>
    refine Sound.memWrite (by simp [hp, Phase.successors]) hC.1 fun hw => Sound.need fun r _ => Sound.next ?_
    constructor <;> simp [hp, Phase.successors, windowAfter, BusEvent.onWindow, ldrCsr, hC.1, hC.2]
  next => exact Sound.next (.drop s)

/-- The phase that issues each write of ACTIVATE. -/
def ActWrite.phase : ActWrite → Phase
  | .rst => .acRst
  | .dis => .acDis
  | .wb => .acWb
  | .vec => .acVec
  | .lvl => .acLvl
  | .ader => .acAder
  | .en => .acEn

/-- A state that differs from `s` by one event of its own and in working registers only. -/
structure OneEvent (s t : State) (e : BusEvent) : Prop where
  cfg : t.cfg = s.cfg
  status : t.status = s.status
  faultInfo : t.faultInfo = s.faultInfo
  operands : t.operands = s.operands
  port : t.port = s.port
  winMapped : t.winMapped = s.winMapped
  image : t.image = s.image
  inputs : t.inputs = s.inputs
  device : t.device = s.device.pop
  trace : t.trace = e :: s.trace
  window : t.window = windowAfter s.window e
  on : e.onWindow s.cfg

theorem actRest_sound {w : ActWrite} {t : State} {e : BusEvent} (h : OneEvent s t e)
    (hp : s.phase = w.phase ∨ s.phase = .acRb) : Sound s (actRest w t) := by
  obtain ⟨h1, h2, h3, h4, h5, h6, h7, h8, h9, h10, h11, h12⟩ := h
  cases w <;> unfold actRest <;> change s.phase = _ ∨ _ at hp <;> dsimp only [ActWrite.phase] at hp
  case ader =>
    refine Sound.need fun k _ => ?_
    split <;> apply Sound.next <;> constructor <;> rcases hp with hp | hp <;>
      simp [h1, h2, h3, h4, h5, h6, h7, h8, h9, h10, h11, h12, hp, Phase.successors]
  all_goals
    apply Sound.next
    constructor <;> rcases hp with hp | hp <;>
      simp [h1, h2, h3, h4, h5, h6, h7, h8, h9, h10, h11, h12, hp, Phase.successors]

theorem actWrite_sound {w : ActWrite} (off : Nat) (b : Byte) (hp : s.phase = w.phase) :
    Sound s (actWrite w off b s) := by
  have hf : .fault ∈ s.phase.successors ∧ .acRb ∈ s.phase.successors := by
    rw [hp]; cases w <;> simp [ActWrite.phase, Phase.successors]
  unfold actWrite csrWrite
  refine Sound.memWrite hf.1 (by simp) fun hw => ?_
  split
  · apply Sound.next
    constructor <;> simp [hf.2, windowAfter, BusEvent.onWindow, hw]
    rw [hp]; cases w <;> simp [ActWrite.phase]
  · refine actRest_sound (e := .write (slot off) (csrWord b)) ?_ (.inl hp)
    constructor <;> simp [windowAfter, BusEvent.onWindow, hw]

theorem activate_sound (s : State) : Sound s (execActivate s) := by
  unfold execActivate
  split
  next hp => apply Sound.next; constructor <;> simp [hp, Phase.successors]
  next hp => exact Sound.withWindow (by simp [hp, Phase.successors]) (actWrite_sound _ _ hp)
  next hp =>
    apply Sound.next
    constructor <;> simp [hp, Phase.successors, windowAfter, BusEvent.onWindow]
  next hp => exact actWrite_sound _ _ hp
  next hp => exact actWrite_sound _ _ hp
  next hp => exact actWrite_sound _ _ hp
  next hp => exact actWrite_sound _ _ hp
  next hp =>
    refine Sound.need fun k _ => Sound.need fun tup _ => ?_
    split
    · exact actWrite_sound _ _ hp
    · apply Sound.next; constructor <;> simp [hp, Phase.successors]
  next hp => exact actWrite_sound _ _ hp
  next hp =>
    have hread : ∀ w off, Sound s (csrRead off (fun _ s => actRest w s) s) := fun w off =>
      Sound.memRead (by simp [hp, Phase.successors]) (by simp) fun v hw =>
        actRest_sound (e := .read (slot off) v) (by constructor <;> simp [windowAfter, BusEvent.onWindow, hw]) (.inr hp)
    refine Sound.need fun w _ => ?_
    cases w
    case ader => exact Sound.need fun k _ => hread _ _
    all_goals exact hread _ _
  next => exact Sound.next (.drop s)

/-- Everything one phase of any command can do. -/
theorem exec_sound (hc : s.cfg.wf = true) (i : Instr) : Sound s (exec i s) := by
  cases i
  · exact csrRead_sound s
  · exact csrWrite_sound _ s
  · exact unlock_sound hc
  · exact isActive_sound hc
  · exact load_sound hc
  · exact activate_sound s

/-- A next state of `exec` is an effect. -/
theorem exec_effect (hc : s.cfg.wf = true) {i : Instr} {t : State} (h : exec i s = .next t) : Effect s t :=
  (exec_sound hc i).1 t h

/-- The sequencer's own step: a phase of the command in progress, or nothing where there is none. -/
theorem advance_effect (hc : s.cfg.wf = true) {t : State} (h : advance s = .next t) :
    (∃ i, s.current = some i ∧ Effect s t) ∨ (s.current = none ∧ t = s) := by
  unfold advance at h
  split at h
  · exact .inl ⟨_, ‹_›, exec_effect hc h⟩
  · exact .inr ⟨‹_›, by cases h; rfl⟩

end Sys2Proof.Machine
end

