-- ==== Sys2Proof/Laws/Memory.lean ====
section
/-! SUPPORT. Memory: a read after a write gives the value written, every other byte stays, and the canonical form is
kept. -/

namespace Sys2Proof.Machine

open Sys2Proof

@[simp] theorem Memory.read_nil (a : Nat) : Memory.read [] a = none := rfl

/-- A byte read where it was just written is the byte written. -/
@[simp] theorem Memory.read_write_same (m : Memory) (a : Nat) (b : Byte) : (m.write a b).read a = some b := by
  induction m with
  | nil => simp [Memory.write, Memory.read]
  | cons p rest ih =>
    simp only [Memory.write]
    split
    · simp [Memory.read]
    · split
      · simp [Memory.read]
      · simp only [Memory.read, ih]
        split
        · omega
        · rfl

/-- A write leaves every other byte. -/
theorem Memory.read_write_other (m : Memory) {a x : Nat} (b : Byte) (h : x ≠ a) :
    (m.write a b).read x = m.read x := by
  induction m with
  | nil => simp [Memory.write, Memory.read, Ne.symm h]
  | cons p rest ih =>
    simp only [Memory.write]
    split
    · simp [Memory.read, Ne.symm h]
    · split
      · rename_i hp
        simp [Memory.read, hp ▸ Ne.symm h, Ne.symm h]
      · simp only [Memory.read, ih]

/-- Both at once, in the form simp uses. -/
theorem Memory.read_write (m : Memory) (a x : Nat) (b : Byte) :
    (m.write a b).read x = if x = a then some b else m.read x := by
  split
  · simp_all
  · exact Memory.read_write_other m b ‹_›

/-- What a word write leaves at each byte (R62). -/
theorem Memory.read_writeWord (m : Memory) (a x : Nat) (v : Word) :
    (m.writeWord a v).read x =
      if a ≤ x ∧ x < a + 4 then some (beByte v (x - a)) else m.read x := by
  simp only [Memory.writeWord, Memory.read_write]
  by_cases h3 : x = a + 3
  · simp [h3]
  by_cases h2 : x = a + 2
  · simp [h2]
  by_cases h1 : x = a + 1
  · simp [h1]
  by_cases h0 : x = a
  · simp [h0]
  rw [if_neg h3, if_neg h2, if_neg h1, if_neg h0, if_neg (by omega)]

/-- The head of a canonical memory bounds the rest: writing above the head keeps it the head. -/
theorem Memory.wf_cons_write (p : Host.Cell) (m : Memory) (a : Nat) (b : Byte) (h : p.1 < a)
    (hm : Memory.wf (p :: m) = true) (ih : Memory.wf (m.write a b) = true) : Memory.wf (p :: m.write a b) = true := by
  cases m with
  | nil => simpa [Memory.write, Memory.wf] using h
  | cons q rest =>
    simp only [Memory.write] at *
    simp only [Memory.wf, Bool.and_eq_true, decide_eq_true_eq] at hm
    split
    · simp_all [Memory.wf]
    · split
      · simp_all [Memory.wf]
      · simp_all [Memory.wf]

/-- A write keeps the canonical form. -/
theorem Memory.wf_write (m : Memory) (a : Nat) (b : Byte) (h : m.wf = true) : (m.write a b).wf = true := by
  induction m with
  | nil => rfl
  | cons p rest ih =>
    have hr : Memory.wf rest = true := by
      cases rest with
      | nil => rfl
      | cons q t => simp_all [Memory.wf]
    have hw := Memory.wf_cons_write p rest a b
    simp only [Memory.write]
    split
    · simp_all [Memory.wf]
    · split
      · cases rest with
        | nil => rfl
        | cons q t => simp_all [Memory.wf]
      · exact hw (by omega) h (ih hr)

/-- A word write keeps the canonical form. -/
@[simp] theorem Memory.wf_writeWord (m : Memory) (a : Nat) (v : Word) (h : m.wf = true) :
    (m.writeWord a v).wf = true := by
  exact Memory.wf_write _ _ _ (Memory.wf_write _ _ _ (Memory.wf_write _ _ _ (Memory.wf_write _ _ _ h)))

end Sys2Proof.Machine
end

