-- ==== Sys2Proof/Laws/Pending.lean ====
section
/-! SUPPORT. The table of pending accesses agrees with the meanings of the commands: the sequencer's own step issues
exactly the access the table names, and none where the table names none. Claims about whichever transaction is under way
cite this and do not go through the phases again. -/

namespace Sys2Proof.Machine

open Sys2Proof

/-- The event of an access that the device completes, a read showing `v`. -/
def Access.event (v : Word) : Access → BusEvent
  | .read a => .read a v
  | .write a w => .write a w

@[simp] theorem Access.event_read (v : Word) (a : Nat) : (Access.read a).event v = .read a v := rfl
@[simp] theorem Access.event_write (v w : Word) (a : Nat) : (Access.write a w).event v = .write a w := rfl
@[simp] theorem Access.addr_read (a : Nat) : (Access.read a).addr = a := rfl
@[simp] theorem Access.addr_write (a : Nat) (w : Word) : (Access.write a w).addr = a := rfl
@[simp] theorem Access.addr_csrWrite (off : Nat) (b : Byte) : (Access.csrWrite off b).addr = slot off := rfl

/-- A transaction is under way: there is a pending access, inside the window (R69). -/
theorem State.underWay_iff {s : State} : s.underWay = true ↔ ∃ x, s.pending = some x ∧ x.addr + 4 ≤ s.cfg.winSize := by
  unfold State.underWay
  split <;> simp [*]

/-- What a completed access of `s` leaves: its event and its answer taken, or a working register was read unwritten. -/
def Completed (s : State) (e : BusEvent) (r : StepResult) : Prop :=
  (∃ f, r = .fault f) ∨
    ∃ t, r = .next t ∧ t.trace = e :: s.trace ∧ t.window = windowAfter s.window e ∧ t.device = s.device.pop

/-- The result `r` of `s` is that of the access `x`, whatever the device answers. -/
def Issues (s : State) (x : Access) (r : StepResult) : Prop :=
  ∃ k, r = transact x.addr k s ∧ ∀ v, Completed s (x.event v) (k v s.answered)

/-- The result `r` of `s` involves no transaction. -/
def Quiet (s : State) (r : StepResult) : Prop :=
  (∃ f, r = .fault f) ∨
    ∃ t, r = .next t ∧ (t.trace = s.trace ∨ t.trace = .delay s.cfg.settle :: s.trace) ∧ t.window = s.window ∧
      t.device = s.device

theorem Completed.next {s t : State} {e : BusEvent} (h1 : t.trace = e :: s.trace)
    (h2 : t.window = windowAfter s.window e) (h3 : t.device = s.device.pop) : Completed s e (.next t) :=
  .inr ⟨t, rfl, h1, h2, h3⟩

theorem Completed.need {s : State} {e : BusEvent} {α : Type} {r : WorkReg} {v : Option α} {k : α → StepResult}
    (hk : ∀ x, v = some x → Completed s e (k x)) : Completed s e (need r v k) :=
  need_elim (P := Completed s e) (fun _ => .inl ⟨_, rfl⟩) hk

theorem Issues.memWrite {s : State} {a : Nat} {w : Word} {k : State → StepResult}
    (h : Completed s (.write a w) (k (s.answered.wrote a w))) : Issues s (.write a w) (memWrite a w k s) :=
  ⟨_, rfl, fun _ => h⟩

theorem Issues.memRead {s : State} {a : Nat} {k : Word → State → StepResult}
    (h : ∀ v, Completed s (.read a v) (k v ((s.answered.record (.read a v)).setRd v))) :
    Issues s (.read a) (memRead a k s) :=
  ⟨_, rfl, h⟩

/-- The sequencer's own step is quiet, or issues the access `x`. -/
def Matches (s : State) (x : Option Access) (r : StepResult) : Prop :=
  match x with
  | some x => Issues s x r
  | none => Quiet s r

theorem Matches.memWrite {s : State} {a : Nat} {w : Word} {k : State → StepResult}
    (h : Completed s (.write a w) (k (s.answered.wrote a w))) : Matches s (some (.write a w)) (memWrite a w k s) :=
  Issues.memWrite h

theorem Matches.memRead {s : State} {a : Nat} {k : Word → State → StepResult}
    (h : ∀ v, Completed s (.read a v) (k v ((s.answered.record (.read a v)).setRd v))) :
    Matches s (some (.read a)) (memRead a k s) :=
  Issues.memRead h

theorem Matches.quiet {s t : State} (h1 : t.trace = s.trace) (h2 : t.window = s.window) (h3 : t.device = s.device) :
    Matches s none (.next t) := .inr ⟨t, rfl, .inl h1, h2, h3⟩

theorem Matches.fault (s : State) (f : Fault) : Matches s none (.fault f) := .inl ⟨f, rfl⟩

/-- Behind the window check, the access is pending with a mapped window only. -/
theorem Matches.withWindow {s : State} {opc : BitVec 4} {x : Access} {k : State → StepResult}
    (h : Matches s (some x) (k s)) :
    Matches s (if s.operands.winValid then some x else none) (withWindow opc k s) := by
  refine withWindow_elim (P := Matches s _) (fun hw => ?_) (fun hw => ?_)
  · rw [if_neg (by simp [hw])]; exact .quiet (by simp) (by simp) (by simp)
  · rw [if_pos hw]; exact h

variable {s : State}

theorem unlockTurn_matches {done : State → StepResult}
    (h0 : Matches s none (done s))
    (h8 : ∀ j, Completed s (.write (ldrBtrigr s.cfg) (unlockWord j))
      (done ((s.answered.wrote (ldrBtrigr s.cfg) (unlockWord j)).setJ (j + 1)))) :
    Matches s s.pendingTrigger (unlockTurn done s) := by
  unfold unlockTurn State.pendingTrigger
  refine need_elim (P := fun r => Matches s _ r) (fun h => by rw [h]; exact .fault s _) (fun j h => ?_)
  rw [h]
  dsimp only
  split
  · refine .memWrite ?_
    split
    · exact .next (by simp) (by simp [windowAfter]) (by simp)
    · exact h8 j
  · exact h0

theorem pollAgain_completed {a : Nat} {v : Word} :
    Completed s (.read a v) (pollAgain ((s.answered.record (.read a v)).setRd v)) := by
  refine Completed.need fun cnt _ => ?_
  split <;> exact .next (by simp) (by simp [windowAfter]) (by simp)

theorem actRest_completed {w : ActWrite} {t : State} {e : BusEvent} (h1 : t.trace = e :: s.trace)
    (h2 : t.window = windowAfter s.window e) (h3 : t.device = s.device.pop) : Completed s e (actRest w t) := by
  unfold actRest
  cases w
  case ader =>
    refine Completed.need fun k _ => ?_
    split <;> exact .next (by simpa) (by simpa) (by simpa)
  all_goals exact .next (by simpa) (by simpa) (by simpa)

theorem actWrite_matches (w : ActWrite) (off : Nat) (b : Byte) :
    Matches s (some (.csrWrite off b)) (actWrite w off b s) := by
  unfold actWrite Machine.csrWrite Access.csrWrite
  refine Matches.memWrite ?_
  split
  · exact .next (by simp) (by simp [windowAfter]) (by simp)
  · exact actRest_completed (by simp) (by simp [windowAfter]) (by simp)

/-- The sequencer's own step issues the pending access, and no other. -/
theorem advance_matches (s : State) : Matches s s.pending (advance s) := by
  unfold advance State.current State.pending
  cases hp : s.phase <;> simp only [Phase.command, exec, execCsrRead, execCsrWrite, execUnlock, execIsActive, execLoad,
    execActivate, hp]
  case idle | fault => exact .quiet rfl rfl rfl
  case crRd =>
    exact Matches.withWindow (.memRead fun v => .next (by simp) (by simp [windowAfter]) (by simp))
  case cwWr =>
    exact Matches.withWindow (.memWrite (.next (by simp) (by simp [windowAfter]) (by simp)))
  case ulChk => unfold phaseUlChk; split <;> exact .quiet (by simp) (by simp) (by simp)
  case ulTrig =>
    exact unlockTurn_matches (.quiet (by simp) (by simp) (by simp))
      fun j => .next (by simp) (by simp [windowAfter]) (by simp)
  case iaRd =>
    exact Matches.withWindow (.memRead fun v => .next (by simp) (by simp [windowAfter]) (by simp))
  case ldChk =>
    unfold phaseLdChk
    split
    · exact .quiet (by simp) (by simp) (by simp)
    · split <;> exact .quiet (by simp) (by simp) (by simp)
  case ldTrig =>
    exact unlockTurn_matches (.quiet (by simp) (by simp) (by simp))
      fun j => .next (by simp) (by simp [windowAfter]) (by simp)
  case ldDet =>
    unfold phaseLdDet readActive
    refine Matches.memRead fun v => ?_
    dsimp only
    split <;> exact .next (by simp) (by simp [windowAfter]) (by simp)
  case ldSwrst | ldStart => exact .memWrite (.next (by simp) (by simp [windowAfter]) (by simp))
  case ldPollf =>
    unfold phaseLdPollf State.pendingPoll
    refine need_elim (P := fun r => Matches s _ r) (fun h => by rw [h]; exact .fault s _) (fun n h => ?_)
    rw [h]
    dsimp only
    split
    · exact .quiet (by simp) (by simp) (by simp)
    · refine Matches.memRead fun v => ?_
      split
      · exact pollAgain_completed
      · exact .next (by simp) (by simp [windowAfter]) (by simp)
  case ldCtl | ldData =>
    first | unfold phaseLdCtl | unfold phaseLdData
    refine need_elim (P := fun r => Matches s _ r) (fun h => by rw [h]; exact .fault s _) (fun n h => ?_)
    rw [h]
    exact .memWrite (.next (by simp) (by simp [windowAfter]) (by simp))
  case ldPolld =>
    refine Matches.memRead fun v => ?_
    split
    · exact .next (by simp) (by simp [windowAfter]) (by simp)
    · exact pollAgain_completed
  case ldExit =>
    refine .memWrite (Completed.need fun r _ => .next (by simp) (by simp [windowAfter]) (by simp))
  case acRst => exact Matches.withWindow (actWrite_matches .rst _ _)
  case acWait => exact .inr ⟨_, rfl, .inr (by simp), by simp, by simp⟩
  case acDis => exact actWrite_matches .dis _ _
  case acWb => exact actWrite_matches .wb _ _
  case acVec => exact actWrite_matches .vec _ _
  case acLvl => exact actWrite_matches .lvl _ _
  case acAder =>
    unfold phaseAcAder State.pendingAder
    refine need_elim (P := fun r => Matches s _ r) (fun h => by rw [h]; exact .fault s _) (fun k h => ?_)
    refine need_elim (P := fun r => Matches s _ r) (fun h' => by rw [h, h']; exact .fault s _) (fun tup h' => ?_)
    rw [h, h']
    dsimp only
    split
    · exact actWrite_matches .ader _ _
    · exact .quiet (by simp) (by simp) (by simp)
  case acEn => exact actWrite_matches .en _ _
  case acRb =>
    have hread : ∀ w off, Matches s (some (.read (slot off))) (csrRead off (fun _ s => actRest w s) s) := fun w off =>
      .memRead fun v => actRest_completed (by simp) (by simp [windowAfter]) (by simp)
    unfold phaseAcRb State.pendingReadBack
    refine need_elim (P := fun r => Matches s _ r) (fun h => by rw [h]; exact .fault s _) (fun w h => ?_)
    rw [h]
    cases w
    case ader =>
      dsimp only
      refine need_elim (P := fun r => Matches s _ r) (fun h => by rw [h]; exact .fault s _) (fun k h => ?_)
      rw [h]
      exact hread _ _
    all_goals exact hread _ _

end Sys2Proof.Machine
end

