-- ==== Sys2Proof/Laws/PerInstr.lean ====
section
/-! SUPPORT. The command word of each command, field by field (spec/30_encoding.md R91, R92). -/

namespace Sys2Proof.Laws.CommandWord

open Sys2Proof

/-- The word of `i`: the reserved field is 0, `OPC` is the opcode R92 lists, and `BYTE` is the
byte of CSR_WRITE and 0 in every other command. -/
def Statement (i : Instr) : Prop :=
  reservedField (encode i) = 0#20 ∧ opcField (encode i) = i.opcode ∧ byteField (encode i) = i.byte

theorem csrRead : Statement .csrRead := by unfold Statement; decide

theorem csrWrite (b : Byte) : Statement (.csrWrite b) := by
  have hr : reservedField (encode (.csrWrite b)) = 0#20 := by
    ext k hk; interval_cases k <;> simp [reservedField, encode, Instr.opcode, Instr.byte]
  have ho : opcField (encode (.csrWrite b)) = 2#4 := by
    ext k hk; interval_cases k <;> simp [opcField, encode, Instr.opcode, Instr.byte]
  have hb : byteField (encode (.csrWrite b)) = b := by
    ext k hk
    interval_cases k <;> simp [byteField, encode, Instr.opcode, Instr.byte, BitVec.getLsbD_eq_getElem]
  exact ⟨hr, ho, hb⟩

theorem unlock : Statement .unlock := by unfold Statement; decide

theorem isActive : Statement .isActive := by unfold Statement; decide

theorem load : Statement .load := by unfold Statement; decide

theorem activate : Statement .activate := by unfold Statement; decide

end Sys2Proof.Laws.CommandWord
end

