-- ==== Sys2Proof/Laws/StepEffect.lean ====
section
/-! SUPPORT. Everything one step can do: a reset, or the changes below. -/

namespace Sys2Proof.Machine

open Sys2Proof

/-- What a step that applies no reset can change. -/
structure StepEffect (s t : State) : Prop where
  cfg : t.cfg = s.cfg
  event : (t.trace = s.trace ∧ t.window = s.window) ∨
    ∃ e, t.trace = e :: s.trace ∧ e.onWindow s.cfg ∧ t.window = windowAfter s.window e
  phase : t.phase = s.phase ∨ t.phase ∈ s.phase.successors
  faultInfo : t.faultInfo = s.faultInfo ∨ (s.phase ≠ .fault ∧ t.phase = .fault)
  stuck : s.phase = .fault → t.trace = s.trace ∧ t.window = s.window ∧ t.status = { s.status with ovr := t.status.ovr }
  rdata : t.status.rdata = s.status.rdata ∨ (s.phase = .crRd ∧ t.phase = .idle)
  active : t.status.active = s.status.active ∨ s.phase = .iaRd ∨ s.phase = .ldDet
  ovr : t.status.ovr = s.status.ovr ∨ t.status.ovr = true ∨
    (s.phase = .idle ∧ ∃ cw i rest, s.inputs = .offer cw :: rest ∧ decode cw = .ok i)
  operands : t.operands = s.operands ∨ s.phase = .idle

variable {s t : State}

/-- Nothing of the sequencer's changed. -/
theorem StepEffect.same (h1 : t.cfg = s.cfg) (h2 : t.trace = s.trace) (h3 : t.window = s.window) (h4 : t.phase = s.phase)
    (h5 : t.faultInfo = s.faultInfo) (h6 : t.status = s.status) (h7 : t.operands = s.operands) : StepEffect s t := by
  constructor <;> simp [h1, h2, h3, h4, h5, h6, h7]

/-- A phase of the command in progress. -/
theorem StepEffect.of_effect {u : State} (hu : u = s ∨ ∃ rest, u = { s with inputs := rest }) (h : Effect u t)
    (ho : s.phase ≠ .idle ∨ ∃ cw i rest, s.inputs = .offer cw :: rest ∧ decode cw = .ok i) : StepEffect s t := by
  obtain ⟨h1, -, -, -, -, -, h6, h7, h8, h9, h10, h11, h12, h13⟩ := h
  have ho' : u.phase = .idle → (s.phase = .idle ∧ ∃ cw i rest, s.inputs = .offer cw :: rest ∧ decode cw = .ok i) := by
    rcases hu with rfl | ⟨rest, rfl⟩ <;> intro hp <;> exact ⟨hp, ho.resolve_left (fun hn => hn hp)⟩
  have h12' := h12.imp id (Or.imp id ho')
  rcases hu with rfl | ⟨rest, rfl⟩
  all_goals
    refine ⟨h1, h6, h7, h8, fun hp => ?_, h10, h11, h12', h13⟩
    obtain ⟨a, b, c⟩ := h9 hp
    exact ⟨a, b, by rw [c]⟩

theorem phase_ne_idle_of_current {i : Instr} (h : s.current = some i) : s.phase ≠ .idle := by
  rintro e; simp [State.current, Phase.command, e] at h

theorem advance_step_effect (hc : s.cfg.wf = true) {u : State} (hu : u = s ∨ ∃ rest, u = { s with inputs := rest })
    (h : advance u = .next t) : StepEffect s t := by
  have hcu : u.cfg.wf = true := by rcases hu with rfl | ⟨_, rfl⟩ <;> exact hc
  rcases advance_effect hcu h with ⟨i, hi, he⟩ | ⟨-, rfl⟩
  · refine .of_effect hu he (.inl ?_)
    have := phase_ne_idle_of_current hi
    rcases hu with rfl | ⟨_, rfl⟩ <;> exact this
  · rcases hu with rfl | ⟨_, rfl⟩ <;> exact .same rfl rfl rfl rfl rfl rfl rfl

theorem offerWord_step_effect (hc : s.cfg.wf = true) {cw : Word} {rest : List HostInput}
    (hi : s.inputs = .offer cw :: rest) (h : offerWord cw { s with inputs := rest } = .next t) : StepEffect s t := by
  unfold offerWord at h
  split at h
  next hp =>
    split at h
    next i hd => exact .of_effect (.inr ⟨rest, rfl⟩) (exec_effect (s := { s with inputs := rest }) hc h) (.inr ⟨cw, i, rest, hi, hd⟩)
    next =>
      change s.phase = .idle at hp
      cases h
      constructor <;> simp [hp]
  next hp =>
    cases h
    constructor <;> simp

/-- Everything one step can do. -/
theorem step_effect (h : step s = .next t) :
    (∃ landed rest, s.inputs = .reset landed :: rest ∧ t = applyReset landed { s with inputs := rest }) ∨
    StepEffect s t := by
  obtain ⟨hc, h⟩ := wf_of_step_next h
  unfold stepInput at h
  split at h
  · exact .inr (advance_step_effect hc (.inl rfl) h)
  · rename_i e rest hi
    split at h
    · exact .inr (advance_step_effect hc (.inl rfl) h)
    · cases e with
      | tick => exact .inr (advance_step_effect hc (.inr ⟨rest, rfl⟩) h)
      | offer cw => exact .inr (offerWord_step_effect hc hi h)
      | write w => cases h; exact .inr (.same rfl rfl rfl rfl rfl rfl rfl)
      | setWindow m =>
        simp only [hostInput, setWindow] at h
        split at h
        · cases h
        · cases h; exact .inr (.same rfl rfl rfl rfl rfl rfl rfl)
      | setImage b =>
        simp only [hostInput, setImage] at h
        split at h
        · cases h
        · cases h; exact .inr (.same rfl rfl rfl rfl rfl rfl rfl)
      | reset landed => cases h; exact .inl ⟨landed, rest, hi, rfl⟩
      | waitDone => cases h; exact .inr (.same rfl rfl rfl rfl rfl rfl rfl)
      | skipUnlessSuccess count =>
        simp only [hostInput] at h
        cases h
        split <;> exact .inr (.same rfl rfl rfl rfl rfl rfl rfl)

/-- A step in which only the host acts: its own side changes, and the status by a dropped or a refused word. -/
def HostOnly (s t : State) : Prop :=
  ∃ port winMapped image inputs status,
    t = { s with port := port, winMapped := winMapped, image := image, inputs := inputs, status := status } ∧
    (status = s.status ∨ (s.phase ≠ .idle ∧ status = { s.status with ovr := true }) ∨
      (s.phase = .idle ∧ status = { s.status with outcome := .cmdRefused }))

/-- The four kinds of step: a reset, a step of the sequencer, an acceptance, a step of the host. -/
theorem step_cases (h : step s = .next t) :
    (∃ landed rest, s.inputs = .reset landed :: rest ∧ t = applyReset landed { s with inputs := rest }) ∨
    (∃ rest, advance { s with inputs := rest } = .next t) ∨
    (∃ cw i rest, s.phase = .idle ∧ s.inputs = .offer cw :: rest ∧ decode cw = .ok i ∧
      exec i { s with inputs := rest } = .next t) ∨
    HostOnly s t := by
  obtain ⟨hc, h⟩ := wf_of_step_next h
  unfold stepInput at h
  split at h
  · exact .inr (.inl ⟨s.inputs, h⟩)
  · rename_i e rest hi
    split at h
    · exact .inr (.inl ⟨s.inputs, h⟩)
    · cases e with
      | tick => exact .inr (.inl ⟨rest, h⟩)
      | offer cw =>
        simp only [hostInput, offerWord] at h
        split at h
        next hp =>
          split at h
          next i hd => exact .inr (.inr (.inl ⟨cw, i, rest, hp, hi, hd, h⟩))
          next => cases h; exact .inr (.inr (.inr ⟨s.port, s.winMapped, s.image, rest, _, rfl, .inr (.inr ⟨hp, rfl⟩)⟩))
        next hp => cases h; exact .inr (.inr (.inr ⟨s.port, s.winMapped, s.image, rest, _, rfl, .inr (.inl ⟨hp, rfl⟩)⟩))
      | write w => cases h; exact .inr (.inr (.inr ⟨s.port.write w, s.winMapped, s.image, rest, s.status, rfl, .inl rfl⟩))
      | setWindow m =>
        simp only [hostInput, setWindow] at h
        split at h
        · cases h
        · cases h; exact .inr (.inr (.inr ⟨s.port, m, s.image, rest, s.status, rfl, .inl rfl⟩))
      | setImage b =>
        simp only [hostInput, setImage] at h
        split at h
        · cases h
        · cases h; exact .inr (.inr (.inr ⟨s.port, s.winMapped, b, rest, s.status, rfl, .inl rfl⟩))
      | reset landed => cases h; exact .inl ⟨landed, rest, hi, rfl⟩
      | waitDone => cases h; exact .inr (.inr (.inr ⟨s.port, s.winMapped, s.image, rest, s.status, rfl, .inl rfl⟩))
      | skipUnlessSuccess count =>
        simp only [hostInput] at h
        cases h
        split
        · exact .inr (.inr (.inr ⟨s.port, s.winMapped, s.image, rest, s.status, rfl, .inl rfl⟩))
        · exact .inr (.inr (.inr ⟨s.port, s.winMapped, s.image, rest.drop count, s.status, rfl, .inl rfl⟩))

/-! ### Reset -/

/-- What landing a transaction can change: at most one event, and nothing of the outside world's but the device's
answers. -/
theorem landTransaction_effect (hc : s.cfg.wf = true) :
    (landTransaction s).cfg = s.cfg ∧ (landTransaction s).winMapped = s.winMapped ∧
    (landTransaction s).image = s.image ∧ (landTransaction s).inputs = s.inputs ∧
    (((landTransaction s).trace = s.trace ∧ (landTransaction s).window = s.window) ∨
      ∃ e, (landTransaction s).trace = e :: s.trace ∧ e.onWindow s.cfg ∧
        (landTransaction s).window = windowAfter s.window e) := by
  unfold landTransaction
  split
  next t h =>
    rcases advance_effect (s := { s with device := s.device.land (s.draws + 4) }) hc h with ⟨-, -, he⟩ | ⟨-, rfl⟩
    · exact ⟨he.cfg, he.winMapped, he.image, he.inputs, he.event⟩
    · simp
  · simp
  · simp

/-- The event a landing transaction can add: the pending access, completed or answered with an error. -/
theorem landTransaction_event (h : s.underWay = true) :
    ∃ x, s.pending = some x ∧ x.addr + 4 ≤ s.cfg.winSize ∧
      (((landTransaction s).trace = s.trace ∧ (landTransaction s).window = s.window) ∨
        (∃ v, (landTransaction s).trace = x.event v :: s.trace ∧
          (landTransaction s).window = windowAfter s.window (x.event v)) ∨
        ((landTransaction s).trace = .error x.addr :: s.trace ∧ (landTransaction s).window = s.window)) := by
  obtain ⟨x, hx, ha⟩ := State.underWay_iff.mp h
  refine ⟨x, hx, ha, ?_⟩
  have hm := advance_matches { s with device := s.device.land (s.draws + 4) }
  rw [show State.pending { s with device := s.device.land (s.draws + 4) } = s.pending from rfl, hx] at hm
  obtain ⟨k, hk, hv⟩ := hm
  unfold landTransaction
  rw [hk]
  cases hd : (s.device.land (s.draws + 4)).peek with
  | done b0 b1 b2 b3 =>
    rw [transact_done (s := { s with device := s.device.land (s.draws + 4) }) ha hd]
    rcases hv (beWord b0 b1 b2 b3) with ⟨f, hf⟩ | ⟨t, ht, h1, h2, -⟩
    · rw [hf]; simp
    · rw [ht]; exact .inr (.inl ⟨_, h1, h2⟩)
  | error => rw [transact_error (s := { s with device := s.device.land (s.draws + 4) }) ha hd]; simp
  | silent => rw [transact_silent (s := { s with device := s.device.land (s.draws + 4) }) ha hd]; simp

/-- The three ways a reset goes (R260, log entry 17): nothing under way, the transaction under way lands, or it does not. -/
theorem applyReset_elim {P : State → Prop} (landed : Bool) (h1 : s.underWay = false → P s.resetSequencer)
    (h2 : s.underWay = true → landed = true → P (landTransaction s).resetSequencer)
    (h3 : s.underWay = true → landed = false → P (State.resetSequencer { s with device := s.device.abandon })) :
    P (applyReset landed s) := by
  unfold applyReset
  split
  · split
    · exact h2 ‹_› ‹_›
    · exact h3 ‹_› (by simpa using ‹¬ landed = true›)
  · exact h1 (by simpa using ‹¬ s.underWay = true›)

/-- What a reset leaves of everything that is not the sequencer's (R260, R261). -/
theorem applyReset_effect (hc : s.cfg.wf = true) (landed : Bool) :
    (applyReset landed s).cfg = s.cfg ∧ (applyReset landed s).winMapped = s.winMapped ∧
    (applyReset landed s).image = s.image ∧ (applyReset landed s).inputs = s.inputs ∧
    (((applyReset landed s).trace = s.trace ∧ (applyReset landed s).window = s.window) ∨
      ∃ e, (applyReset landed s).trace = e :: s.trace ∧ e.onWindow s.cfg ∧
        (applyReset landed s).window = windowAfter s.window e) :=
  applyReset_elim (P := fun t => t.cfg = s.cfg ∧ t.winMapped = s.winMapped ∧ t.image = s.image ∧ t.inputs = s.inputs ∧
      ((t.trace = s.trace ∧ t.window = s.window) ∨
        ∃ e, t.trace = e :: s.trace ∧ e.onWindow s.cfg ∧ t.window = windowAfter s.window e))
    landed (fun _ => by simp) (fun _ _ => by simpa using landTransaction_effect hc) (fun _ _ => by simp)

/-- The sequencer's registers after a reset (R33). -/
theorem applyReset_registers (landed : Bool) (s : State) :
    (applyReset landed s).phase = .idle ∧ (applyReset landed s).status = Status.reset ∧
    (applyReset landed s).faultInfo = FaultInfo.reset ∧ (applyReset landed s).work = Working.empty := by
  refine applyReset_elim (P := fun t => t.phase = .idle ∧ t.status = Status.reset ∧ t.faultInfo = FaultInfo.reset ∧
    t.work = Working.empty) landed ?_ ?_ ?_ <;> intros <;> simp

end Sys2Proof.Machine
end

