-- ==== Sys2Proof/Laws/Run.lean ====
section
/-! SUPPORT. Runs: one step at a time from either end, and what a run in which the host does nothing keeps. -/

namespace Sys2Proof.Machine

open Sys2Proof

@[simp] theorem run_zero (s : State) : run 0 s = .next s := rfl

/-- The first step, then the others. -/
theorem run_succ_of_step {s t : State} (h : step s = .next t) (k : Nat) : run (k + 1) s = run k t := by
  simp only [run, Host.Core.run]
  rw [show Sys2Proof.core.step s = .next t from h]

/-- A run has a first step. -/
theorem exists_step_of_run_succ {k : Nat} {s t : State} (h : run (k + 1) s = .next t) :
    ∃ u, step s = .next u ∧ run k u = .next t := by
  simp only [run, Host.Core.run] at h
  split at h
  · exact ⟨_, ‹_›, h⟩
  · cases h
  · cases h

/-- Runs one after the other. -/
theorem run_add {j : Nat} {s t : State} (h : run j s = .next t) (k : Nat) : run (j + k) s = run k t := by
  induction j generalizing s with
  | zero => cases h; simp
  | succ j ih =>
    obtain ⟨u, hu, hr⟩ := exists_step_of_run_succ h
    rw [Nat.succ_add, run_succ_of_step hu, ih hr]

/-- One step more at the end of a run. -/
theorem run_succ_end {k : Nat} {s t u : State} (h : run k s = .next t) (hu : step t = .next u) :
    run (k + 1) s = .next u := by
  rw [run_add h 1, run_succ_of_step hu, run_zero]

/-- One answer more is taken at the end. -/
theorem Device.later_succ (d : Device) (k : Nat) : d.later (k + 1) = (d.later k).pop := by
  induction k generalizing d with
  | zero => rfl
  | succ k ih => exact ih d.pop

/-- What every step keeps, every state of the run has. -/
theorem reaches_induction {P : State → Prop} {s t : State} (hs : P s) (h : s.reaches t)
    (hstep : ∀ u v, P u → step u = .next v → P v) : P t := by
  obtain ⟨k, hk⟩ := h
  induction k generalizing s with
  | zero => cases hk; exact hs
  | succ k ih =>
    obtain ⟨u, hu, hr⟩ := exists_step_of_run_succ hk
    exact ih (hstep s u hs hu) hr

/-- A step with no input of the host left leaves none, and takes one answer of the device or none. -/
theorem step_alone {s t : State} (hi : s.inputs = []) (h : step s = .next t) :
    t.inputs = [] ∧ t.cfg = s.cfg ∧ (t.device = s.device ∨ t.device = s.device.pop) := by
  obtain ⟨hc, h⟩ := wf_of_step_next h
  rw [stepInput_nil hi] at h
  rcases advance_effect hc h with ⟨_, _, he⟩ | ⟨_, rfl⟩
  · exact ⟨by rw [he.inputs, hi], he.cfg, he.device⟩
  · exact ⟨hi, rfl, .inl rfl⟩

end Sys2Proof.Machine
end

