-- ==== Sys2Proof/Tests/Slice0.lean ====
section
/-! SUPPORT. The model's own tests: the checks of WellFormed refuse what they should, words and values written out from the
spec decode and compute as it says, single steps end as its examples say, and every statement with hypotheses has a state that
meets them (the witnesses). The expected values are the spec's (the vector or rule is named), under its instance `K`. -/

namespace Sys2Proof.Tests

open Sys2Proof Sys2Proof.Machine

/-! ### States the tests start from -/

/-- A device that completes every transaction, every read with the value `v`. -/
def always (v : Word) : Device := ⟨[], some (Response.ofWord v), 0⟩

/-- A device that answers the next transaction with `r`. -/
def once (r : Response) : Device := ⟨[r], none, 0⟩

/-- `IDLE`, window mapped, a five-byte image offered, ACTIVATE's configuration that of T50; the device completes
every transaction. -/
def idle (inputs : List HostInput) : State :=
  { State.reset with
    winMapped := true
    port := ⟨0x1235#32, true, 5#32, 0x39001234#32, 0x86#8, 0x02#8⟩
    image := [0x01#8, 0x02#8, 0x03#8, 0x04#8, 0x05#8]
    device := always 0#32
    inputs := inputs }

/-- In phase `p` of its command, everything latched, the working registers `w`. -/
def running (p : Phase) (w : Working) : State :=
  { idle [] with
    phase := p
    status := ⟨true, false, true, false, .none, 0x00#8⟩
    operands :=
      ⟨((p.command 0x80#8).map Instr.opcode).getD 0#4, 0x1235#32, 0x80#8, true, 5#32, 0x39001234#32, 0x86#8, 0x02#8, true⟩
    work := w }

/-- In `FAULT` after an access outside the window (P5). -/
def stuck : State :=
  { running .fault Working.empty with
    status := ⟨true, true, false, false, .none, 0x39#8⟩
    faultInfo := ⟨.outOfWindow, 0x00080000#32⟩ }

/-- Working registers with the stream position and the poll counter. -/
def streaming (n cnt : Nat) : Working := { Working.empty with n := some n, pcCnt := some cnt }

/-- Working registers in the relocation. -/
def relocation (k : Nat) : Working :=
  { Working.empty with k := some k, tup := some (reloc Config.candidate 0x39001234#32) }

/-- `c` with a poll bound. -/
def bounded (m : Nat) (s : State) : State := { s with cfg := { s.cfg with pollLimit := some m } }

/-- `s` with read-back on. -/
def withReadback (s : State) : State := { s with cfg := { s.cfg with readback := true } }

/-- `s` with another device. -/
def answering (d : Device) (s : State) : State := { s with device := d }

/-- `s` with inputs of the host. -/
def told (inputs : List HostInput) (s : State) : State := { s with inputs := inputs }

/-! ### WellFormed: one ill-formed term a check -/

theorem test_candidate_wf : Config.candidate.wf = true := by decide

theorem test_candidate_unbroken : Config.candidate.firstBroken = none := by decide

theorem test_config_refused :
    ({ Config.candidate with winSize := 0x80001 } : Config).firstBroken = some .winSizeAligned ∧
    ({ Config.candidate with ldrBase := 0x70002 } : Config).firstBroken = some .ldrBaseAligned ∧
    ({ Config.candidate with settle := 0 } : Config).firstBroken = some .settlePositive ∧
    ({ Config.candidate with pollLimit := some 0 } : Config).firstBroken = some .pollLimitPositive ∧
    ({ Config.candidate with fifoFull := 0x00030000#32 } : Config).firstBroken = some .fifoFullOneBit ∧
    ({ Config.candidate with enableCore := 0x00#8 } : Config).firstBroken = some .coreBitsOneBit := by decide

theorem test_config_refused_loader :
    ({ Config.candidate with offIdr := 0x0D } : Config).firstBroken = some .loaderAligned ∧
    ({ Config.candidate with offIdr := 0x04 } : Config).firstBroken = some .loaderDistinct ∧
    ({ Config.candidate with offIdr := 0x10000 } : Config).firstBroken = some .loaderInWindow := by decide

theorem test_config_refused_flags :
    ({ Config.candidate with csrMsbf := 0x11#32 } : Config).firstBroken = some .commandFlagsOneBit ∧
    ({ Config.candidate with csrMsbf := 0x01#32 } : Config).firstBroken = some .commandFlagsDistinct ∧
    ({ Config.candidate with csrDone := 0#32 } : Config).firstBroken = some .statusFlagsOneBit ∧
    ({ Config.candidate with csrDone := 0x04#32 } : Config).firstBroken = some .statusFlagsDistinct ∧
    ({ Config.candidate with xlast := 0x0C#32 } : Config).firstBroken = some .xlastOneBit ∧
    ({ Config.candidate with xlast := 0x02#32 } : Config).firstBroken = some .xlastAboveSize := by decide

theorem test_config_refused_csr :
    ({ Config.candidate with offAder0 := 0x7FFF5 } : Config).firstBroken = some .csrInWindow ∧
    ({ Config.candidate with offBitset := 0x80000 } : Config).firstBroken = some .csrInWindow ∧
    ({ Config.candidate with am := 0x40#8 } : Config).firstBroken = some .amSixBits := by decide

theorem test_line_refused : ∀ l ∈ [AsmLine.image [], .image [256], .config (2 ^ 32) 0 0, .config 0 256 0, .config 0 0 256,
    .csrRd (2 ^ 32), .csrWr (2 ^ 32) 0, .csrWr 0 256, .word (2 ^ 32), .csrSet 256, .csrClr 256],
    AsmLine.wf Config.candidate l = false := by decide

/-- A window over 4 GiB with the set and clear registers above it: their offsets fit no `ARG_OFF`. -/
def wideWindow : Config := { Config.candidate with winSize := 2 ^ 33, offBitset := 2 ^ 32 + 3, offBitclr := 2 ^ 32 + 7 }

theorem test_csr_set_offset_refused : wideWindow.wf = true ∧
    AsmLine.wf wideWindow (.csrSet 0x80) = false ∧ AsmLine.wf wideWindow (.csrClr 0x80) = false ∧
    AsmLine.wf Config.candidate (.csrSet 0x80) = true ∧ AsmLine.wf Config.candidate (.csrWr 0x7FF63 0x40) = true := by decide

/-! ### Decoding: words written out from R91 and R92 (T1 to T9) -/

/-- `OPC` in bits 3:0, `BYTE` in bits 11:4, the rest 0. -/
theorem test_decode_csr_read : decode 0b00000000000000000000_00000000_0001#32 = .ok .csrRead := by decide

theorem test_decode_csr_write : decode 0b00000000000000000000_01000000_0010#32 = .ok (.csrWrite 0x40#8) := by decide

theorem test_decode_unlock : decode 0b00000000000000000000_00000000_0011#32 = .ok .unlock := by decide

theorem test_decode_is_active : decode 0b00000000000000000000_00000000_0100#32 = .ok .isActive := by decide

theorem test_decode_load : decode 0b00000000000000000000_00000000_0101#32 = .ok .load := by decide

theorem test_decode_activate : decode 0b00000000000000000000_00000000_0110#32 = .ok .activate := by decide

theorem test_decode_refused :
    decode 0b00000000000000000000_00000000_0000#32 = .error .reservedOpcode ∧
    decode 0b00000000000000000000_00000000_0111#32 = .error .reservedOpcode ∧
    decode 0b00000000000000000000_00000000_1111#32 = .error .reservedOpcode ∧
    decode 0b00000000000000000000_00000001_0001#32 = .error .byteNotZero ∧
    decode 0b00000000000000000000_10000000_0110#32 = .error .byteNotZero ∧
    decode 0b00000000000000000001_00000000_0001#32 = .error .reservedBits ∧
    decode 0b10000000000000000000_00000000_0010#32 = .error .reservedBits := by decide

theorem test_decode_table_word :
    decodeTableWord 32 0x00000402 = some (.csrWrite 0x40#8) ∧ decodeTableWord 32 0 = none ∧
    decodeTableWord 64 0x0000000100000001 = none := by decide

/-! ### Register values written out in the spec -/

/-- P5's `STATUS` words. -/
theorem test_status_words :
    Status.word ⟨false, false, false, false, .success, 0x39#8⟩ = 0x00003910#32 ∧
    Status.word ⟨false, false, false, false, .cmdRefused, 0x39#8⟩ = 0x00003960#32 ∧
    Status.word ⟨true, true, false, false, .none, 0x39#8⟩ = 0x00003903#32 ∧
    Status.word ⟨true, true, false, true, .none, 0x39#8⟩ = 0x0000390B#32 ∧
    Status.word ⟨false, false, true, false, .timeout, 0x00#8⟩ = 0x00000054#32 := by decide

/-- T20, T22, T23 under `K`: the control words of a final chunk of 1, 3 and 4 bytes, and T23 with `P_LAST_ON_FULL` false. -/
theorem test_control_words :
    ctrlWord Config.candidate (chunkLen 1 0) (lastFlag Config.candidate 1 0) = 0x00000004#32 ∧
    ctrlWord Config.candidate (chunkLen 3 0) (lastFlag Config.candidate 3 0) = 0x00000006#32 ∧
    ctrlWord Config.candidate (chunkLen 4 0) (lastFlag Config.candidate 4 0) = 0x00000007#32 ∧
    ctrlWord Config.candidate (chunkLen 5 0) (lastFlag Config.candidate 5 0) = 0x00000003#32 ∧
    ctrlWord Config.candidate 4 (lastFlag { Config.candidate with lastOnFull := false } 4 0) = 0x00000003#32 := by decide

/-- The data word of R64's example: the first image byte in bits 31:24. -/
theorem test_data_word : dataWord [0x01#8, 0x02#8, 0x03#8, 0x04#8] 4 0 0 = 0x01020304#32 := by decide

/-- T70, T72 to T74 under `K`. -/
theorem test_relocation :
    reloc Config.candidate 0x39000000#32 = ⟨0x39#8, 0x00#8, 0x00#8, 0x24#8⟩ ∧
    reloc Config.candidate 0xFFFFFFFF#32 = ⟨0xFF#8, 0xFF#8, 0xFF#8, 0x24#8⟩ ∧
    reloc Config.candidate 0x000000FF#32 = ⟨0x00#8, 0x00#8, 0x00#8, 0x24#8⟩ ∧
    reloc { Config.candidate with am := 0x3F#8 } 0x12345678#32 = ⟨0x12#8, 0x34#8, 0x56#8, 0xFC#8⟩ := by decide

/-- T45: every bit of the FIFO status but FULL is room; T49a: every bit of the CSR but DONE is not done. -/
theorem test_flags :
    fifoIsFull Config.candidate 0xFFFEFFFF#32 = false ∧ fifoIsFull Config.candidate 0x00010000#32 = true ∧
    isDone Config.candidate 0xFFFFFFFD#32 = false ∧ isDone Config.candidate 0x00000002#32 = true := by decide

/-! ### Single steps -/

/-- R123's example: `ARG_OFF = 0x1235`, the device returns `0xAABBCC5A` at `0x1234`. -/
theorem test_csr_read : ∃ t, exec .csrRead (answering (always 0xAABBCC5A#32) (running .crRd Working.empty)) = .next t ∧
    t.status.rdata = 0x5A#8 ∧ t.status.outcome = .success ∧ t.trace = [.read 0x1234 0xAABBCC5A#32] :=
  ⟨_, rfl, by decide, by decide, by decide⟩

/-- R124's example: one write of `0x00000080` at `0x1234`, the byte at `0x1237`. -/
theorem test_csr_write : ∃ t, exec (.csrWrite 0x80#8) (running .cwWr Working.empty) = .next t ∧
    t.trace = [.write 0x1234 0x00000080#32] ∧
    t.window = [(0x1234, 0x00#8), (0x1235, 0x00#8), (0x1236, 0x00#8), (0x1237, 0x80#8)] :=
  ⟨_, rfl, by decide, by decide⟩

/-- R142's example: the eighth trigger write carries `0xBE` and ends UNLOCK. -/
theorem test_unlock : ∃ t, exec .unlock (running .ulTrig { Working.empty with j := some 7 }) = .next t ∧
    t.trace = [.write 0x70004 0x000000BE#32] ∧ t.phase = .idle ∧ t.status.outcome = .success :=
  ⟨_, rfl, by decide, by decide, by decide⟩

/-- R144: one bit off the identifier is `StillLocked`. -/
theorem test_is_active : ∃ t, exec .isActive (answering (always 0x53564542#32) (running .iaRd Working.empty)) = .next t ∧
    t.status.active = false ∧ t.status.outcome = .stillLocked ∧ t.trace = [.read 0x7000C 0x53564542#32] :=
  ⟨_, rfl, by decide, by decide, by decide⟩

/-- T49: done and error in one read is `BitstreamRejected`, reported after the exit write. -/
theorem test_load_poll :
    ∃ t, exec .load (answering (always 0x00000006#32) (running .ldPolld (streaming 8 0))) = .next t ∧
      t.phase = .ldExit ∧ t.work.res = some .bitstreamRejected ∧ t.status.outcome = .none :=
  ⟨_, rfl, by decide, by decide, by decide⟩

/-- T41: the bound of the FIFO poll. -/
theorem test_load_timeout :
    ∃ t, exec .load (bounded 2 (answering (always 0x00010000#32) (running .ldPollf (streaming 0 1)))) = .next t ∧
      t.phase = .ldExit ∧ t.work.res = some .timeout :=
  ⟨_, rfl, by decide, by decide⟩

/-- T50: write 9, the last relocation byte. -/
theorem test_activate_ader : ∃ t, exec .activate (running .acAder (relocation 3)) = .next t ∧
    t.trace = [.write 0x7FF6C 0x00000024#32] ∧ t.phase = .acEn :=
  ⟨_, rfl, by decide, by decide⟩

/-- T51: the read-back of the reset write comes before the delay. -/
theorem test_activate_readback :
    ∃ t, exec .activate (withReadback (running .acRb { Working.empty with rb := some .rst })) = .next t ∧
      t.trace = [.read 0x7FFF8 0#32] ∧ t.phase = .acWait :=
  ⟨_, rfl, by decide, by decide⟩

/-- A word placed by `withFetchWord` is the next step's command. -/
theorem test_fetch : ∃ t, step (State.reset.withFetchWord 32 0x00000005) = .next t ∧ t.phase = .ldChk :=
  ⟨_, rfl, by decide⟩

/-! ### Programs -/

theorem test_configure_inputs :
    AsmLine.inputs Config.candidate .configure =
      [.offer 0x00000005#32, .waitDone, .skipUnlessSuccess 2, .offer 0x00000006#32, .waitDone] := by decide

theorem test_csr_set_inputs :
    AsmLine.inputs Config.candidate (.csrSet 0x80) =
      [.write (.argOff 0x0007FFFB#32), .offer 0x00000802#32, .waitDone] := by decide

/-- Lines of P5 as text, and what is no line of R105. -/
theorem test_read_program :
    readProgram [".window mapped", "csr.rd 0x7FF63      ; CW 0x00000001", "", "wait", "csr.wr 0x7FF63, 0x40 ; CW 0x00000402",
      ".word 0x00000000", "isactive"] =
    some [.window true, .csrRd 0x7FF63, .wait, .csrWr 0x7FF63 0x40, .word 0, .isactive] ∧
    readProgram [".image null", ".image 0x5A", ".config 0x39001234, 0x86, 0x02", "configure"] =
    some [.imageNull, .image [0x5A], .config 0x39001234 0x86 0x02, .configure] ∧
    readProgram ["unlock 1"] = none ∧ readProgram ["csr.wr 0x7FF63"] = none := by decide

/-- The last two lines of P5 at a pace of one step after the first: `isactive` meets `FAULT`, as P5 has it; at no pace it
meets `CR_RD`. -/
theorem test_pace :
    assemble Config.candidate [1] [.csrRd 0x80000, .isactive] =
      some [.write (.argOff 0x00080000#32), .offer 0x1#32, .tick, .offer 0x4#32] ∧
    assemble Config.candidate [] [.csrRd 0x80000, .isactive] =
      some [.write (.argOff 0x00080000#32), .offer 0x1#32, .offer 0x4#32] ∧
    assemble wideWindow [] [.csrSet 0x80] = none := by decide

/-- `.window unmapped` and `.image` take effect (R105, R273). -/
theorem test_providers :
    (∃ t, step (idle [.setWindow false]) = .next t ∧ t.winMapped = false) ∧
    ∃ t, step (idle [.setImage [0x5A#8]]) = .next t ∧ t.image = [0x5A#8] := ⟨⟨_, rfl, rfl⟩, ⟨_, rfl, rfl⟩⟩

/-! ### Reset -/

/-- With no transaction under way a silent answer is not yet asked for, and stays (R260); a hanging transaction that reset
abandons takes it along, and one that lands is recorded. -/
theorem test_reset_answers :
    (∀ landed, (applyReset landed (answering (once .silent) (idle []))).device = once .silent) ∧
    (∀ landed, (applyReset landed (answering (once .silent) (running .acWait Working.empty))).device = once .silent) ∧
    (applyReset false (answering (once .silent) (running .ldSwrst Working.empty))).device.script = [] ∧
    (applyReset true (answering (once .silent) (running .ldSwrst Working.empty))).trace = [.write 0x70000 0x00000020#32] :=
  ⟨fun l => by cases l <;> rfl, fun l => by cases l <;> rfl, rfl, by decide⟩

/-! ### Witnesses: for each statement with hypotheses, states that meet them, clause by clause -/

/-- The answers that give the events `es`. -/
def answersFor (es : List BusEvent) : List Response :=
  match es with
  | [] => []
  | .read _ v :: rest => Response.ofWord v :: answersFor rest
  | .write _ _ :: rest => .done 0x00#8 0x00#8 0x00#8 0x00#8 :: answersFor rest
  | .error _ :: rest => .error :: answersFor rest
  | .delay _ :: rest => answersFor rest

/-- They do give them. -/
theorem gives_answersFor (es : List BusEvent) (n : Nat) : Device.gives ⟨answersFor es, none, n⟩ es := by
  induction es generalizing n with
  | nil => trivial
  | cons e rest ih =>
    cases e
    · exact ⟨rfl, ih (n + 1)⟩
    · exact ⟨⟨_, _, _, _, rfl⟩, ih (n + 1)⟩
    · exact ih n
    · exact ⟨rfl, ih (n + 1)⟩

/-- The lasting answer is every answer. -/
theorem later_always (v : Word) (k n : Nat) : (Device.later ⟨[], some (Response.ofWord v), n⟩ k).peek = Response.ofWord v := by
  induction k generalizing n with
  | zero => rfl
  | succ k ih => exact ih (n + 1)

/-- A running state meets the invariant when its working registers do. -/
theorem running_inv (p : Phase) (w : Working) (h1 : p ≠ .idle) (h2 : p ≠ .fault) (h : (running p w).workOk) :
    (running p w).Inv where
  busy := ⟨fun _ => h1, fun _ => rfl⟩
  fault := ⟨fun e => (nomatch e), fun e => absurd e h2⟩
  cause := ⟨fun e => absurd rfl e, fun e => absurd e h2⟩
  info := fun _ => rfl
  outcome := fun _ => rfl
  opcode := by
    intro i hi
    change p.command 0x80#8 = some i at hi
    change ((p.command 0x80#8).map Instr.opcode).getD 0#4 = i.opcode
    rw [hi]; rfl
  mapped := fun _ => rfl
  image := fun _ => ⟨rfl, show 0 < 5 by decide⟩
  active := fun _ => rfl
  work := h
  window := rfl

/-- The invariant says nothing about the device's answers and the host's inputs. -/
theorem inv_outside {s : State} (h : s.Inv) (d : Device) (inputs : List HostInput) :
    (told inputs (answering d s)).Inv :=
  ⟨h.1, h.2, h.3, h.4, h.5, h.6, h.7, h.8, h.9, h.10, h.11⟩

/-- The unlock index of the first trigger write. -/
def atTrig (j : Nat) : Working := { Working.empty with j := some j }

theorem witness_InvalidWordRefused : (told [.offer 0x13#32] State.reset).cfg.wf = true ∧
    (told [.offer 0x13#32] State.reset).phase = .idle ∧ ¬ ∃ i, decode 0x13#32 = .ok i :=
  ⟨by decide, rfl, by rintro ⟨i, h⟩; simp [show decode 0x13#32 = .error .byteNotZero by decide] at h⟩

theorem witness_StepRunsTheCommand_offered : (idle [.offer 0x5#32]).cfg.wf = true ∧ (idle [.offer 0x5#32]).phase = .idle ∧
    decode 0x5#32 = .ok .load := by decide

theorem witness_StepRunsTheCommand_alone :
    (running .ldSwrst Working.empty).cfg.wf = true ∧ (running .ldSwrst Working.empty).inputs = [] ∧
    (running .ldSwrst Working.empty).current = some .load := by decide

theorem witness_StepRunsTheCommand_tick :
    (told [.tick] (running .cwWr Working.empty)).cfg.wf = true ∧
    (told [.tick] (running .cwWr Working.empty)).inputs = .tick :: [] ∧
    (told [.tick] (running .cwWr Working.empty)).current = some (.csrWrite 0x80#8) := by decide

theorem witness_AcceptanceLatchesOperands : (idle [.offer 0x802#32]).cfg.wf = true ∧
    (idle [.offer 0x802#32]).phase = .idle ∧ decode 0x802#32 = .ok (.csrWrite 0x80#8) := by decide

/-- T12. -/
theorem witness_BusyOfferDropped_drop : (told [.offer 0x4#32] (running .ldPolld (streaming 8 0))).cfg.wf = true ∧
    (told [.offer 0x4#32] (running .ldPolld (streaming 8 0))).phase ≠ .idle := by decide

/-- T10: an accepted command clears `OVR`; so does reset. -/
theorem witness_BusyOfferDropped_clear :
    (∃ s t : State, step s = .next t ∧ s.status.ovr = true ∧ t.status.ovr = false ∧ s.inputs = [.offer 0x3#32]) ∧
    ∃ s t : State, step s = .next t ∧ s.status.ovr = true ∧ t.status.ovr = false ∧ s.inputs = [.reset true] :=
  ⟨⟨told [.offer 0x3#32] (idle []).drop, _, rfl, rfl, rfl, rfl⟩, ⟨told [.reset true] stuck.drop, _, rfl, rfl, rfl, rfl⟩⟩

theorem witness_FaultIsLeftByResetOnly :
    (∃ t, stuck.phase = .fault ∧ step stuck = .next t) ∧ run 3 stuck = .next stuck ∧
    ∃ t, (told [.reset false] stuck).phase = .fault ∧ step (told [.reset false] stuck) = .next t ∧ t.phase = .idle :=
  ⟨⟨_, rfl, rfl⟩, rfl, ⟨_, rfl, rfl, rfl⟩⟩

/-- Reset in a data write and in the settle delay, landing or not. -/
theorem witness_ResetGivesIdle (landed : Bool) :
    let s := told [.reset landed] (running .ldData (streaming 4 0))
    let t := told [.reset landed] (running .acWait Working.empty)
    s.cfg.wf = true ∧ s.inputs = .reset landed :: [] ∧ s.underWay = true ∧
      t.cfg.wf = true ∧ t.inputs = .reset landed :: [] ∧ t.underWay = false := by
  cases landed <;> decide

/-- A hanging write, an erroneous write and a completed read under way, landing or not. -/
theorem witness_WriteUnderWayMayLand (landed : Bool) :
    let s := fun r => told [.reset landed] (answering (once r) (running .acAder (relocation 3)))
    let u := told [.reset landed] (answering (once (Response.ofWord 0x2#32)) (running .ldDet Working.empty))
    (∀ r, (s r).cfg.wf = true ∧ (s r).Inv ∧ (s r).pendingAddr = some 0x7FF6C ∧ 0x7FF6C + 4 ≤ (s r).cfg.winSize ∧
      (s r).inputs = .reset landed :: [] ∧ (s r).pendingWord = some 0x24#32 ∧ (s r).device.peek = r) ∧
    u.cfg.wf = true ∧ u.Inv ∧ u.pendingAddr = some 0x7000C ∧ 0x7000C + 4 ≤ u.cfg.winSize ∧
      u.inputs = .reset landed :: [] ∧ u.pendingWord = none ∧ u.device.peek = Response.ofWord 0x2#32 := by
  have hi := running_inv .acAder (relocation 3) (by decide) (by decide) ⟨3, rfl, by decide, rfl⟩
  have hj := running_inv .ldDet Working.empty (by decide) (by decide) trivial
  exact ⟨fun r => ⟨show Config.candidate.wf = true by decide, inv_outside hi _ _,
      show State.pendingAddr (running .acAder (relocation 3)) = _ by decide,
      show 0x7FF6C + 4 ≤ Config.candidate.winSize by decide, rfl,
      show State.pendingWord (running .acAder (relocation 3)) = _ by decide, rfl⟩,
    show Config.candidate.wf = true by decide, inv_outside hj _ _, by rfl,
    show 0x7000C + 4 ≤ Config.candidate.winSize by decide, rfl, rfl, rfl⟩

/-- A CSR access in phase `p` at offset `off`. -/
def csrAccess (p : Phase) (off : Word) (mapped : Bool) : State :=
  { running p Working.empty with operands := { (running p Working.empty).operands with argOff := off, winValid := mapped } }

/-- The last offset inside the window and the first outside it, for both commands. -/
theorem witness_CsrCommands (p : Phase) (hp : p = .crRd ∨ p = .cwWr) :
    (csrAccess p 0x7FFFF#32 false).phase = p ∧ (csrAccess p 0x7FFFF#32 false).operands.winValid = false ∧
    (csrAccess p 0x80000#32 true).operands.winValid = true ∧
    (csrAccess p 0x80000#32 true).cfg.winSize < slot (csrAccess p 0x80000#32 true).operands.argOff.toNat + 4 ∧
    (csrAccess p 0x7FFFF#32 true).operands.winValid = true ∧
    slot (csrAccess p 0x7FFFF#32 true).operands.argOff.toNat + 4 ≤ (csrAccess p 0x7FFFF#32 true).cfg.winSize ∧
    (csrAccess p 0x7FFFF#32 true).device.peek = .done 0x00#8 0x00#8 0x00#8 0x00#8 := by
  rcases hp with rfl | rfl <;> decide

theorem witness_SlotIgnoresLowBits : ∃ t, (running .crRd Working.empty).phase ≠ .idle ∧
    0x1237#32 &&& ~~~ 3#32 = (running .crRd Working.empty).operands.argOff &&& ~~~ 3#32 ∧
    exec .csrRead (running .crRd Working.empty) = .next t := ⟨_, by decide, by decide, rfl⟩

theorem witness_WindowIsBigEndian : (0 < 4 ∨ 4 + 4 ≤ 0) ∧ (8 < 4 ∨ 4 + 4 ≤ 8) ∧
    0x7FFFC + 4 ≤ (idle []).cfg.winSize ∧ (idle []).device.peek = .done 0x00#8 0x00#8 0x00#8 0x00#8 := by decide

/-- UNLOCK with the window unmapped. -/
def unlockUnmapped : State :=
  { running .ulChk Working.empty with operands := { (running .ulChk Working.empty).operands with winValid := false } }

theorem witness_UnlockCommand_check :
    unlockUnmapped.phase = .ulChk ∧ unlockUnmapped.operands.winValid = false ∧
    (running .ulChk Working.empty).phase = .ulChk ∧ (running .ulChk Working.empty).operands.winValid = true := by decide

/-- The first and the last trigger write, of UNLOCK and of LOAD. -/
theorem witness_trigger_writes (p : Phase) (j : Nat) (hp : p = .ulTrig ∨ p = .ldTrig) (hj : j = 0 ∨ j = 7) :
    (running p (atTrig j)).cfg.wf = true ∧ (running p (atTrig j)).phase = p ∧
    (running p (atTrig j)).work.j = some j ∧ j < 8 ∧ (running p (atTrig j)).device.peek.completes := by
  rcases hp with rfl | rfl <;> rcases hj with rfl | rfl <;> exact ⟨by decide, rfl, rfl, by decide, ⟨_, _, _, _, rfl⟩⟩

theorem witness_UnlockRun :
    let s := answering ⟨answersFor (unlockTrace Config.candidate), none, 0⟩ (idle [.offer 0x3#32])
    s.cfg.wf = true ∧ s.phase = .idle ∧ s.winMapped = true ∧ s.inputs = [.offer 0x3#32] ∧ decode 0x3#32 = .ok .unlock ∧
      s.device.gives (unlockTrace s.cfg) :=
  ⟨by decide, rfl, rfl, rfl, by decide, gives_answersFor _ 0⟩

/-- A record in which every identifier read matches keeps `DEV_UNLOCK_IDEM`. -/
theorem unlockIdem_of_match (c : Config) (n : Nat) :
    unlockIdem c (.read (ldrIdr c) c.idWord :: ((unlockTrace c).reverse ++ List.replicate n (.read (ldrIdr c) c.idWord))) := by
  intro v older later h
  have hm : BusEvent.read (ldrIdr c) v ∈ later ++ .read (ldrIdr c) v ::
    ((unlockTrace c).reverse ++ .read (ldrIdr c) c.idWord :: older) := by simp
  rw [← h] at hm
  have : v = c.idWord ∨ (n ≠ 0 ∧ v = c.idWord) := by simpa [unlockTrace] using hm
  exact this.elim id (·.2)

/-- `probe` on a loader just found active, by a device that shows the identifier again. -/
theorem witness_UnlockRun_probe :
    let c := Config.candidate
    let es := unlockTrace c ++ [.read (c.ldrBase + c.offIdr) c.idWord]
    let s := { answering ⟨answersFor es, none, 0⟩ (idle (AsmLine.inputs c .probe)) with
      trace := [.read (c.ldrBase + c.offIdr) c.idWord] }
    s.cfg.wf = true ∧ s.phase = .idle ∧ s.winMapped = true ∧ s.inputs = AsmLine.inputs s.cfg .probe ∧
      s.trace = .read (s.cfg.ldrBase + s.cfg.offIdr) s.cfg.idWord :: [] ∧
      s.device.gives (unlockTrace s.cfg ++ [.read (s.cfg.ldrBase + s.cfg.offIdr) s.cfg.idWord]) ∧
      unlockIdem s.cfg (.read (s.cfg.ldrBase + s.cfg.offIdr) s.cfg.idWord :: ((unlockTrace s.cfg).reverse ++ s.trace)) :=
  ⟨by decide, rfl, rfl, rfl, rfl, gives_answersFor _ 0, unlockIdem_of_match Config.candidate 1⟩

/-- IS_ACTIVE unmapped, with a match and with one bit off. -/
theorem witness_IsActiveCommand :
    (csrAccess .iaRd 0#32 false).cfg.wf = true ∧ (csrAccess .iaRd 0#32 false).phase = .iaRd ∧
    (csrAccess .iaRd 0#32 false).operands.winValid = false ∧ (csrAccess .iaRd 0#32 true).operands.winValid = true ∧
    (answering (always 0x53564543#32) (csrAccess .iaRd 0#32 true)).device.peek = Response.ofWord 0x53564543#32 ∧
    (answering (always 0x53564542#32) (csrAccess .iaRd 0#32 true)).device.peek = Response.ofWord 0x53564542#32 := by
  decide

/-- LOAD in its checks with these operands. -/
def checking (imgValid : Bool) (imgLen : Word) (winValid : Bool) : State :=
  { running .ldChk Working.empty with
    operands := { (running .ldChk Working.empty).operands with imgValid := imgValid, imgLen := imgLen, winValid := winValid } }

/-- T60 to T62, and the shortest image that is accepted. -/
theorem witness_LoadChecks :
    (checking false 0#32 true).phase = .ldChk ∧ (checking false 0#32 true).operands.imgValid = false ∧
    (checking true 0#32 true).operands.imgLen = 0#32 ∧ (checking true 4#32 false).operands.winValid = false ∧
    (checking true 1#32 true).operands.imgValid = true ∧ (checking true 1#32 true).operands.imgLen ≠ 0#32 ∧
    (checking true 1#32 true).operands.winValid = true := by decide

theorem witness_LoadDetection :
    (answering (always 0x53564543#32) (running .ldDet Working.empty)).cfg.wf = true ∧
    (answering (always 0x53564543#32) (running .ldDet Working.empty)).phase = .ldDet ∧
    (answering (always 0x53564543#32) (running .ldDet Working.empty)).device.peek = Response.ofWord 0x53564543#32 ∧
    (answering (always 0#32) (running .ldDet Working.empty)).device.peek = Response.ofWord 0#32 := by decide

/-- T63. -/
theorem witness_LoadStillLockedRun :
    let es := unlockTrace Config.candidate ++ [.read (Config.candidate.ldrBase + Config.candidate.offIdr) 0#32]
    let s := answering ⟨answersFor es, none, 0⟩ (idle [.offer 0x5#32])
    s.cfg.wf = true ∧ s.phase = .idle ∧ s.winMapped = true ∧ s.port.imgValid = true ∧ s.port.imgLen ≠ 0#32 ∧
      s.inputs = [.offer 0x5#32] ∧ decode 0x5#32 = .ok .load ∧ 0#32 ≠ s.cfg.idWord ∧ s.device.gives es :=
  ⟨by decide, rfl, rfl, rfl, by decide, rfl, by decide, by decide, gives_answersFor _ 0⟩

/-- The writes of LOAD after the detection, each in its phase: the hypotheses of the session start, the control word, the
data word (all four bytes in the image) and the exit write. -/
theorem witness_load_writes :
    ((running .ldSwrst Working.empty).cfg.wf = true ∧ (running .ldSwrst Working.empty).device.peek.completes) ∧
    (running .ldSwrst Working.empty).phase = .ldSwrst ∧ (running .ldStart Working.empty).phase = .ldStart ∧
    ((running .ldCtl (streaming 4 0)).phase = .ldCtl ∧ (running .ldCtl (streaming 4 0)).work.n = some 4) ∧
    ((running .ldData (streaming 0 0)).phase = .ldData ∧ (running .ldData (streaming 0 0)).work.n = some 0 ∧
      0 + 3 < (running .ldData (streaming 0 0)).operands.imgLen.toNat ∧
      (running .ldData (streaming 0 0)).image[0 + 3]? = some 0x04#8) ∧
    ((running .ldExit { Working.empty with res := some .timeout }).phase = .ldExit ∧
      (running .ldExit { Working.empty with res := some .timeout }).work.res = some .timeout) :=
  ⟨⟨by decide, ⟨_, _, _, _, rfl⟩⟩, by decide⟩

/-- The short last chunk: byte 4 is the image's, byte 5 is past `L`. -/
theorem witness_short_chunk :
    4 < (running .ldData (streaming 4 0)).operands.imgLen.toNat ∧ (running .ldData (streaming 4 0)).image[4]? = some 0x05#8 ∧
    ¬ 4 + 1 < (running .ldData (streaming 4 0)).operands.imgLen.toNat := by decide

/-- At `n ≥ L`; below it with room, full without a bound, and full at the bound. -/
theorem witness_FifoPoll :
    (running .ldPollf (streaming 8 0)).cfg.wf = true ∧ (running .ldPollf (streaming 8 0)).phase = .ldPollf ∧
    (running .ldPollf (streaming 8 0)).work.n = some 8 ∧ (running .ldPollf (streaming 8 0)).operands.imgLen.toNat ≤ 8 ∧
    4 < (running .ldPollf (streaming 4 0)).operands.imgLen.toNat ∧
    (running .ldPollf (streaming 4 0)).device.peek = Response.ofWord 0#32 ∧
    0#32 &&& (running .ldPollf (streaming 4 0)).cfg.fifoFull = 0#32 ∧
    0x00010000#32 &&& (running .ldPollf (streaming 4 1)).cfg.fifoFull ≠ 0#32 ∧
    (running .ldPollf (streaming 4 1)).work.pcCnt = some 1 ∧
    (running .ldPollf (streaming 4 1)).cfg.pollLimit ≠ some (1 + 1) ∧
    (bounded 2 (running .ldPollf (streaming 4 1))).cfg.wf = true ∧
    (bounded 2 (running .ldPollf (streaming 4 1))).cfg.pollLimit = some (1 + 1) := by decide

/-- Done with and without error, not done without a bound, and not done at the bound. -/
theorem witness_CompletionPoll :
    (answering (always 0x6#32) (running .ldPolld (streaming 8 0))).cfg.wf = true ∧
    (answering (always 0x6#32) (running .ldPolld (streaming 8 0))).phase = .ldPolld ∧
    (answering (always 0x6#32) (running .ldPolld (streaming 8 0))).device.peek = Response.ofWord 0x6#32 ∧
    0x6#32 &&& Config.candidate.csrDone ≠ 0#32 ∧ 0x4#32 &&& Config.candidate.csrDone = 0#32 ∧
    (running .ldPolld (streaming 8 0)).work.pcCnt = some 0 ∧
    (running .ldPolld (streaming 8 0)).cfg.pollLimit ≠ some (0 + 1) ∧
    (bounded 1 (running .ldPolld (streaming 8 0))).cfg.wf = true ∧
    (bounded 1 (running .ldPolld (streaming 8 0))).cfg.pollLimit = some (0 + 1) := by decide

theorem witness_ControlWordLayout : Config.candidate.wf = true ∧ 1 ≤ 1 ∧ 1 ≤ 4 ∧ 1 ≤ 4 ∧ 4 ≤ 4 := by decide

/-- Both settings of `P_LAST_ON_FULL`, on the last of the two chunks of an 8-byte image and on the one of a 1-byte image. -/
theorem witness_LastFlagOnFinalChunk : 1 ≤ 8 ∧ 1 < (8 + 3) / 4 ∧ 0 < (1 + 3) / 4 ∧ Config.candidate.lastOnFull = true ∧
    ({ Config.candidate with lastOnFull := false } : Config).lastOnFull = false := by decide

/-- An image with other bytes past `L`. -/
theorem witness_ImageReadBelowLength :
    ∃ t, (running .ldData (streaming 4 0)).phase ≠ .idle ∧
      (∀ k, k < (running .ldData (streaming 4 0)).operands.imgLen.toNat →
        ([0x01#8, 0x02#8, 0x03#8, 0x04#8, 0x05#8, 0xFF#8] : List Byte)[k]? =
          (running .ldData (streaming 4 0)).image[k]?) ∧
      exec .load (running .ldData (streaming 4 0)) = .next t :=
  ⟨_, by decide, by decide, rfl⟩

/-- A step into `IDLE` from the exit write, and one by reset. -/
theorem witness_SessionEndsByExitWrite :
    (∃ t, step (running .ldExit { Working.empty with res := some .success }) = .next t ∧ t.phase = .idle) ∧
    ∃ t, step (told [.reset false] (running .ldPollf (streaming 0 0))) = .next t ∧ t.phase = .idle :=
  ⟨⟨_, rfl, rfl⟩, ⟨_, rfl, rfl⟩⟩

/-- Two chunks, the second after a full FIFO, and one completion read with DONE clear (like P2). -/
def loadPolls : List (List Word × Word) := [([], 0#32), ([0x00010000#32], 0#32)]

/-- That LOAD offered, its poll bound 2, its device giving the answers the trace needs. -/
def loadStart : State :=
  let s := bounded 2 (idle [.offer 0x5#32])
  answering ⟨answersFor (loadTrace s.cfg s.image s.port.imgLen.toNat s.draws loadPolls [0x4#32] 0x2#32), none, 0⟩ s

/-- Its configuration: the candidate's with the bound. -/
def boundedCandidate : Config := { Config.candidate with pollLimit := some 2 }

theorem witness_LoadRun_cfg : loadStart.cfg = boundedCandidate ∧ boundedCandidate.wf = true ∧
    (∀ p ∈ loadPolls, (∀ v ∈ p.1, v &&& boundedCandidate.fifoFull ≠ 0#32) ∧ p.2 &&& boundedCandidate.fifoFull = 0#32) ∧
    (∀ v ∈ [0x4#32], v &&& boundedCandidate.csrDone = 0#32) ∧ 0x2#32 &&& boundedCandidate.csrDone ≠ 0#32 ∧
    boundedCandidate.pollLimit = some 2 ∧ (∀ p ∈ loadPolls, p.1.length < 2) ∧ [0x4#32].length < 2 :=
  ⟨rfl, by decide, by simp [loadPolls, boundedCandidate, Config.candidate],
    by simp [boundedCandidate, Config.candidate], by decide, rfl, by simp [loadPolls], by decide⟩

theorem witness_LoadRun : loadStart.phase = .idle ∧ loadStart.winMapped = true ∧ loadStart.port.imgValid = true ∧
    loadStart.port.imgLen = 5#32 ∧ loadStart.inputs = [.offer 0x5#32] ∧ decode 0x5#32 = .ok .load ∧
    loadPolls.length = (loadStart.port.imgLen.toNat + 3) / 4 :=
  ⟨rfl, rfl, rfl, rfl, rfl, by decide, rfl⟩

theorem witness_LoadRun_answers :
    loadStart.device.gives
      (loadTrace loadStart.cfg loadStart.image loadStart.port.imgLen.toNat loadStart.draws loadPolls [0x4#32] 0x2#32) := by
  unfold loadStart
  exact gives_answersFor _ 0

/-- A run without the host, of a device with a lasting answer: every state it reaches has that device. -/
theorem reaches_always {s t : State} (v : Word) (hi : s.inputs = []) (hd : s.device = always v) (h : s.reaches t) :
    t.cfg = s.cfg ∧ t.device.script = [] ∧ t.device.after = some (Response.ofWord v) := by
  have key := reaches_induction (P := fun u => u.inputs = [] ∧ u.cfg = s.cfg ∧ u.device.script = [] ∧
    u.device.after = some (Response.ofWord v)) (s := s) (t := t) ⟨hi, rfl, by rw [hd]; rfl, by rw [hd]; rfl⟩ h ?_
  · exact key.2
  · rintro u w ⟨h1, h2, h3, h4⟩ hstep
    obtain ⟨i1, i2, i3⟩ := step_alone h1 hstep
    refine ⟨i1, i2.trans h2, ?_⟩
    rcases i3 with e | e <;> rw [e] <;> simp [Device.pop, h3, h4]

/-- Every answer of such a device is that value. -/
theorem value_always {d : Device} (v : Word) (h1 : d.script = []) (h2 : d.after = some (Response.ofWord v)) (k : Nat) :
    (d.later k).peek = Response.ofWord v ∧ d.value k = v := by
  obtain ⟨script, after, n⟩ := d
  cases h1; cases h2
  have h := later_always v k n
  refine ⟨h, ?_⟩
  unfold Device.value
  rw [h]
  exact beWord_beByte v

/-- A device that always answers `0x2`: not full, done. -/
theorem witness_LoadEnds :
    let s := answering (always 0x2#32) (running .ldPollf (streaming 0 0))
    s.cfg.wf = true ∧ s.Inv ∧ s.inputs = [] ∧ s.current = some .load ∧ s.noBusError ∧ s.fifoDrains ∧ s.doneEventually := by
  have hi := running_inv .ldPollf (streaming 0 0) (by decide) (by decide)
    ⟨⟨0, rfl, rfl, by decide⟩, 0, rfl, fun m h => (nomatch h)⟩
  refine ⟨by decide, inv_outside hi (always 0x2#32) [], rfl, rfl, ?_, ?_, ?_⟩
  · intro t h _
    obtain ⟨-, h1, h2⟩ := reaches_always 0x2#32 rfl rfl h
    exact ⟨_, _, _, _, (value_always 0x2#32 h1 h2 0).1⟩
  · intro t h _ _
    obtain ⟨hc, h1, h2⟩ := reaches_always 0x2#32 rfl rfl h
    exact ⟨0, by rw [hc, (value_always 0x2#32 h1 h2 0).2]; decide⟩
  · intro t h _
    obtain ⟨hc, h1, h2⟩ := reaches_always 0x2#32 rfl rfl h
    exact ⟨0, by rw [hc, (value_always 0x2#32 h1 h2 0).2]; decide⟩

/-- T44 and T49d: full for ever, and an error flag for ever with DONE clear. -/
theorem witness_FullForeverPollsForever :
    let s := answering (always 0x00010000#32) (running .ldPollf (streaming 0 0))
    let u := answering (always 0x4#32) (running .ldPolld (streaming 8 0))
    (s.cfg.wf = true ∧ s.cfg.pollLimit = none ∧ s.inputs = [] ∧ s.status.busy = true ∧ s.work.pcCnt = some 0 ∧
      (∀ m, (s.device.later m).peek.completes) ∧ s.phase = .ldPollf ∧ s.work.n = some 0 ∧ 0 < s.operands.imgLen.toNat ∧
      ∀ m, s.device.value m &&& s.cfg.fifoFull ≠ 0#32) ∧
    u.cfg.wf = true ∧ u.cfg.pollLimit = none ∧ u.inputs = [] ∧ u.status.busy = true ∧ u.work.pcCnt = some 0 ∧
      (∀ m, (u.device.later m).peek.completes) ∧ u.phase = .ldPolld ∧ ∀ m, u.device.value m &&& u.cfg.csrDone = 0#32 :=
  ⟨⟨by decide, rfl, rfl, rfl, rfl, fun m => ⟨_, _, _, _, later_always 0x00010000#32 m 0⟩, rfl, rfl, by decide,
      fun m => by rw [(value_always 0x00010000#32 rfl rfl m).2]; decide⟩,
    by decide, rfl, rfl, rfl, rfl, fun m => ⟨_, _, _, _, later_always 0x4#32 m 0⟩, rfl,
    fun m => by rw [(value_always 0x4#32 rfl rfl m).2]; decide⟩

theorem witness_RelocationTuple : Config.candidate.wf = true ∧ 0x39001234#32 >>> 8 = 0x390012FF#32 >>> 8 := by decide

/-- Each write before the relocation, the delay, and the unmapped window. -/
theorem witness_ActivateSetupWrites :
    (csrAccess .acRst 0#32 false).cfg.wf = true ∧ (csrAccess .acRst 0#32 false).phase = .acRst ∧
    (csrAccess .acRst 0#32 false).operands.winValid = false ∧ (running .acWait Working.empty).phase = .acWait ∧
    (running .acRst Working.empty).device.peek.completes ∧ (running .acRst Working.empty).operands.winValid = true ∧
    ∀ w p, (w, p) ∈ [(ActWrite.rst, Phase.acRst), (.dis, .acDis), (.wb, .acWb), (.vec, .acVec)] →
      (running p Working.empty).phase = p ∧ (running p Working.empty).cfg.wf = true :=
  ⟨by decide, rfl, rfl, rfl, ⟨_, _, _, _, rfl⟩, rfl, fun w p _ => ⟨rfl, show Config.candidate.wf = true by decide⟩⟩

/-- The level write, the first and the last relocation write and the enable write, with and without read-back. -/
theorem witness_ActivateRelocationWrites (rb : Bool) :
    let at' := fun p w => if rb then withReadback (running p w) else running p w
    (∀ p w, (at' p w).cfg.wf = true ∧ (at' p w).cfg.readback = rb ∧ (at' p w).device.peek.completes ∧
      (at' p w).phase = p ∧ (at' p w).work = w) ∧
    (relocation 0).k = some 0 ∧ (relocation 3).k = some 3 ∧ 0 < 4 ∧ 3 < 4 ∧
    (relocation 3).tup = some ⟨0x39#8, 0x00#8, 0x12#8, 0x24#8⟩ := by
  have h1 : Config.candidate.wf = true := by decide
  have h2 : Config.wf { Config.candidate with readback := true } = true := by decide
  exact ⟨fun p w => by cases rb <;> exact ⟨by assumption, rfl, ⟨_, _, _, _, rfl⟩, rfl, rfl⟩, by decide⟩

/-- A read-back under way, the working registers `w`. -/
theorem readingBack_inv (w : Working) (a : ActWrite) (hw : w.rb = some a)
    (h : a = .ader → (withReadback (running .acRb w)).relocating) : (withReadback (running .acRb w)).Inv :=
  ⟨⟨fun _ e => (nomatch e), fun _ => rfl⟩, ⟨fun e => (nomatch e), fun e => (nomatch e)⟩,
    ⟨fun e => absurd rfl e, fun e => (nomatch e)⟩, fun _ => rfl, fun _ => rfl,
    (running_inv .acEn w (by decide) (by decide) trivial).6, fun _ => rfl, fun e => (nomatch e), fun _ => rfl,
    ⟨rfl, a, hw, h⟩, rfl⟩

/-- The read-back of each write, `k` at 3: that of the last relocation write and of the enable write among them. -/
theorem witness_ReadBackHasNoEffect (w : ActWrite) :
    let s := withReadback (running .acRb { relocation 3 with rb := some w })
    s.cfg.wf = true ∧ s.Inv ∧ s.phase = .acRb ∧ s.work.rb = some w ∧ s.device.peek = Response.ofWord 0#32 ∧
      (w = .ader → s.work.k = some 3) :=
  ⟨show Config.wf { Config.candidate with readback := true } = true by decide,
    readingBack_inv _ w rfl (fun _ => ⟨3, rfl, by decide, rfl⟩), rfl, rfl, show Device.peek (always 0#32) = _ by decide,
    fun _ => rfl⟩

/-- The read-backs before the relocation, as every run meets them: `k` and the tuple hold no value. -/
theorem witness_ReadBackHasNoEffect_unwritten (w : ActWrite) (hw : w ∈ [ActWrite.rst, .dis, .wb, .vec, .lvl]) (k : Nat) :
    let s := withReadback (running .acRb { Working.empty with rb := some w })
    s.cfg.wf = true ∧ s.Inv ∧ s.phase = .acRb ∧ s.work.rb = some w ∧ s.device.peek = Response.ofWord 0#32 ∧
      s.work.k = none ∧ s.work.tup = none ∧ (w = .ader → s.work.k = some k) := by
  have hn : w ≠ .ader := by rintro rfl; simp at hw
  exact ⟨show Config.wf { Config.candidate with readback := true } = true by decide,
    readingBack_inv _ w rfl (fun e => absurd e hn), rfl, rfl, show Device.peek (always 0#32) = _ by decide, rfl, rfl,
    fun e => absurd e hn⟩

/-- T50 and T51. -/
theorem witness_ActivateRun (rb : Bool) :
    let c : Config := { Config.candidate with readback := rb }
    let s : State := { idle [.offer 0x6#32] with
      cfg := c
      device := ⟨answersFor (activateTrace c 0x39001234#32 0x86#8 0x02#8 (fun _ => 0#32)), none, 0⟩ }
    s.cfg.wf = true ∧ s.phase = .idle ∧ s.winMapped = true ∧ s.inputs = [.offer 0x6#32] ∧ decode 0x6#32 = .ok .activate ∧
      s.device.gives (activateTrace s.cfg s.port.cfgAddr s.port.cfgVec s.port.cfgLvl (fun _ => 0#32)) :=
  ⟨by cases rb <;> decide, rfl, rfl, rfl, by decide, gives_answersFor _ 0⟩

/-- A state of the invariant that steps: the premises of the invariant's preservation, and of every statement about all
steps. -/
theorem witness_StepKeepsInvariant :
    (running .ldData (streaming 0 0)).Inv ∧ ∃ t, step (running .ldData (streaming 0 0)) = .next t ∧
      ∃ e, t.trace = e :: (running .ldData (streaming 0 0)).trace :=
  ⟨running_inv _ _ (by decide) (by decide) ⟨⟨0, rfl, rfl, by decide⟩, rfl⟩, _, rfl, _, rfl⟩

/-- Each phase that reads a working register, with that register unwritten and what the phase reads before it written. -/
theorem witness_NoUnwrittenRegisterRead :
    (∃ t, (idle []).phase = .idle ∧ exec .load (idle []) = .next t) ∧
    (∀ p ∈ [Phase.ulTrig, .ldTrig, .ldPollf, .ldCtl, .ldData, .acAder, .acRb], (running p Working.empty).phase = p ∧
      (running p Working.empty).work = ⟨none, none, none, none, none, none, none, none⟩) ∧
    (running .acAder { Working.empty with k := some 3 }).work.tup = none ∧
    ((running .acRb { Working.empty with rb := some .ader }).work.k = none) ∧
    ((running .ldPollf Working.empty).cfg.wf = true ∧
      (answering (always 0x00010000#32) (running .ldPollf { Working.empty with n := some 0 })).device.peek =
        Response.ofWord 0x00010000#32 ∧
      0 < (running .ldPollf { Working.empty with n := some 0 }).operands.imgLen.toNat ∧
      0x00010000#32 &&& Config.candidate.fifoFull ≠ 0#32 ∧
      (running .ldPollf { Working.empty with n := some 0 }).work.pcCnt = none) ∧
    ((running .ldPolld Working.empty).work.pcCnt = none ∧
      (running .ldPolld Working.empty).device.peek = Response.ofWord 0#32 ∧ 0#32 &&& Config.candidate.csrDone = 0#32) ∧
    ((running .ldExit Working.empty).phase = .ldExit ∧ (running .ldExit Working.empty).work.res = none) ∧
    (running .ldData (streaming 0 0)).Inv :=
  ⟨⟨_, rfl, rfl⟩, by decide, rfl, rfl, by decide, by decide, by decide,
    running_inv _ _ (by decide) (by decide) ⟨⟨0, rfl, rfl, by decide⟩, rfl⟩⟩

/-- A step that records no event, and one that records one. -/
theorem witness_OneEventPerStep :
    (∃ t, step (running .ulChk Working.empty) = .next t ∧ t.trace = []) ∧
    ∃ t, step (running .acWait Working.empty) = .next t ∧ t.trace = [.delay 10] := ⟨⟨_, rfl, rfl⟩, ⟨_, rfl, rfl⟩⟩

theorem witness_OnlyCsrAccessLeavesWindow :
    (csrAccess .crRd 0x80000#32 true).Inv ∧ ∃ t, step (csrAccess .crRd 0x80000#32 true) = .next t ∧
      (csrAccess .crRd 0x80000#32 true).faultInfo.cause ≠ .outOfWindow ∧ t.faultInfo.cause = .outOfWindow := by
  have hi := running_inv .crRd Working.empty (by decide) (by decide) trivial
  exact ⟨⟨hi.1, hi.2, hi.3, hi.4, hi.5, hi.6, fun e => (nomatch e), fun e => (nomatch e), hi.9, trivial, rfl⟩,
    _, rfl, by decide, rfl⟩

/-- A transaction answered with an error, and one never answered. -/
theorem witness_BusErrorAndSilence (r : Response) (hr : r = .error ∨ r = .silent) :
    let s := answering (once r) (running .acAder (relocation 3))
    s.cfg.wf = true ∧ s.Inv ∧ s.inputs = [] ∧ s.pendingAddr = some 0x7FF6C ∧ 0x7FF6C + 4 ≤ s.cfg.winSize ∧
      s.device.peek = r := by
  have hi := running_inv .acAder (relocation 3) (by decide) (by decide) ⟨3, rfl, by decide, rfl⟩
  rcases hr with rfl | rfl <;>
    exact ⟨by decide, ⟨hi.1, hi.2, hi.3, hi.4, hi.5, hi.6, hi.7, hi.8, hi.9, hi.10, hi.11⟩, rfl, by decide, by decide, rfl⟩

theorem witness_FaultInfoWrittenByFaultOnly :
    ∃ t, step (answering (once .error) (running .ldSwrst Working.empty)) = .next t ∧
      t.faultInfo ≠ (answering (once .error) (running .ldSwrst Working.empty)).faultInfo := ⟨_, rfl, by decide⟩

/-- A step that writes `RDATA`, and one that writes `ACTIVE`. -/
theorem witness_ResultFieldsHaveOneWriter :
    (∃ t, step (answering (always 0x5A#32) (running .crRd Working.empty)) = .next t ∧
      t.status.rdata ≠ (running .crRd Working.empty).status.rdata) ∧
    ∃ t, step (running .ldDet Working.empty) = .next t ∧
      t.status.active ≠ (running .ldDet Working.empty).status.active := ⟨⟨_, rfl, by decide⟩, ⟨_, rfl, by decide⟩⟩

/-- A step in a command, for the operands held and for what the host writes late. -/
theorem witness_OperandsHeld : ∃ t, (running .acVec Working.empty).phase ≠ .idle ∧
    (running .acVec Working.empty).current = some .activate ∧ step (running .acVec Working.empty) = .next t ∧
    exec .activate (running .acVec Working.empty) = .next t := ⟨_, by decide, by decide, rfl, rfl⟩

/-- A host write of an operand while a command runs. -/
theorem witness_LateOperandWritesHaveNoEffect_write :
    (told [.write (.imgLen 9#32)] (running .ldPollf (streaming 0 0))).cfg.wf = true ∧
    (told [.write (.imgLen 9#32)] (running .ldPollf (streaming 0 0))).inputs = .write (.imgLen 9#32) :: [] := by decide

theorem witness_CommandForgetsWorkingState : (idle []).phase = .idle := rfl

/-- A configuration that breaks R9(2), refused before any step. -/
theorem witness_ConfigurationRefused :
    step { idle [] with cfg := { Config.candidate with csrMsbf := 0x01#32 } } =
      .refused (.configuration .commandFlagsDistinct) := rfl

/-- The two broken host duties, and each allowed change: in `IDLE`, in `FAULT`, of the image while another command than LOAD
runs, and to the value that is there. -/
theorem witness_NoCommandRefused :
    step (told [.setWindow false] (running .crRd Working.empty)) = .refused (.hostDuty .windowStable) ∧
    step (told [.setImage []] (running .ldData (streaming 0 0))) = .refused (.hostDuty .imageStable) ∧
    (told [.setWindow false] (running .crRd Working.empty)).current ≠ none ∧
    (idle [.setWindow false]).cfg.wf = true ∧ (idle [.setWindow false]).current = none ∧
    (told [.setWindow false] stuck).current = none ∧
    true = (told [.setWindow true] (running .crRd Working.empty)).winMapped ∧
    (told [.setImage [0x5A#8]] (running .crRd Working.empty)).current ≠ some .load ∧
    (told [.setImage []] (running .ldData (streaming 0 0))).current = some .load ∧
    ([0x01#8, 0x02#8, 0x03#8, 0x04#8, 0x05#8] : List Byte) = (running .ldData (streaming 0 0)).image :=
  ⟨rfl, rfl, by decide⟩

/-- After `Success`, and after another outcome (P3, P3b). -/
theorem witness_ConfigureActivatesAfterSuccessOnly :
    (idle []).cfg.wf = true ∧
    (told [.skipUnlessSuccess 2, .offer 0x6#32, .waitDone] ((idle []).finish .success)).status.outcome = .success ∧
    (told [.skipUnlessSuccess 2, .offer 0x6#32, .waitDone] ((idle []).finish .bitstreamRejected)).status.outcome ≠ .success ∧
    (told [.skipUnlessSuccess 2, .offer 0x6#32, .waitDone] ((idle []).finish .success)).inputs =
      .skipUnlessSuccess 2 :: .offer 0x6#32 :: .waitDone :: [] := by decide

end Sys2Proof.Tests
end

section
/-! PROOFS. A configuration is refused exactly when it breaks R8 or R9 (O58): the checks of `Config.holds` are the written-out
constraints, a broken check refuses every step, and no other step is refused for its configuration. -/

namespace Sys2Proof

open Sys2Proof.Machine

/-! ### One bit set -/

/-- `oneBit` says that the value is a power of two. -/
theorem oneBit_iff_isPowerOfTwo {w : Nat} (v : BitVec w) : oneBit v = true ↔ v.toNat.isPowerOfTwo := by
  rw [← Nat.ne_zero_and_sub_one_eq_zero_iff_isPowerOfTwo]
  simp only [oneBit, Bool.and_eq_true, bne_iff_ne, beq_iff_eq, ne_eq, ← BitVec.toNat_inj, BitVec.toNat_and,
    BitVec.toNat_ofNat, Nat.zero_mod]
  refine and_congr_right fun hv => ?_
  have hw : 1 < 2 ^ w := by have := v.isLt; omega
  rw [BitVec.toNat_sub_of_le (by simp only [BitVec.le_def, BitVec.toNat_ofNat, Nat.mod_eq_of_lt hw]; omega),
    BitVec.toNat_ofNat, Nat.mod_eq_of_lt hw]

/-- So does `isSingleBit`: the exponent is a bit position, since the value fits its width. -/
theorem isSingleBit_iff_isPowerOfTwo {w : Nat} (v : BitVec w) : isSingleBit v ↔ v.toNat.isPowerOfTwo := by
  constructor
  · rintro ⟨i, hi, rfl⟩
    exact ⟨i, BitVec.toNat_twoPow_of_lt hi⟩
  · rintro ⟨i, hv⟩
    have hi : i < w := (Nat.pow_lt_pow_iff_right (by decide)).mp (hv ▸ v.isLt)
    exact ⟨i, hi, BitVec.eq_of_toNat_eq (hv.trans (BitVec.toNat_twoPow_of_lt hi).symm)⟩

/-- The model's test for one bit is the spec's "one bit set" (R8, R9). -/
theorem oneBit_iff_isSingleBit {w : Nat} (v : BitVec w) : oneBit v = true ↔ isSingleBit v :=
  (oneBit_iff_isPowerOfTwo v).trans (isSingleBit_iff_isPowerOfTwo v).symm

/-- A single bit misses the size field `[1:0]` exactly when it is bit 2 or higher (R9(4)). -/
theorem twoPow_and_three_eq_zero_iff {i : Nat} (hi : i < 32) : BitVec.twoPow 32 i &&& 3#32 = 0#32 ↔ 2 ≤ i := by
  interval_cases i <;> decide

/-- A flag is a single bit outside the size field exactly when it is one bit at position 2 or higher (R9(4)). -/
theorem isSingleBit_and_three_eq_zero_iff (v : Word) :
    isSingleBit v ∧ v &&& 3#32 = 0#32 ↔ ∃ i, 2 ≤ i ∧ i < 32 ∧ v = BitVec.twoPow 32 i := by
  constructor
  · rintro ⟨⟨i, hi, rfl⟩, h⟩
    exact ⟨i, (twoPow_and_three_eq_zero_iff hi).mp h, hi, rfl⟩
  · rintro ⟨i, h, hi, rfl⟩
    exact ⟨⟨i, hi, rfl⟩, (twoPow_and_three_eq_zero_iff hi).mpr h⟩

/-! ### The checks are the constraints -/

/-- A slot as R67 words it, by division. -/
theorem slot_eq_div_mul (off : Nat) : slot off = off / 4 * 4 := by unfold slot; omega

/-- The bound of a poll is not 0 exactly when it is absent or at least 1 (R8). -/
theorem pollLimit_ne_zero_iff (l : Option Nat) : l ≠ some 0 ↔ l = none ∨ ∃ m, l = some m ∧ 1 ≤ m := by
  cases l with
  | none => simp
  | some m => simp [Nat.one_le_iff_ne_zero]

/-- Every check together gives the domains of R8 and the constraints of R9. -/
theorem Config.asSpecified_of_wf {c : Config} (h : c.wf = true) : c.AsSpecified where
  winSize := by simpa [Config.holds] using Config.wf_holds h .winSizeAligned
  ldrBase := by simpa [Config.holds] using Config.wf_holds h .ldrBaseAligned
  settle := by simpa [Config.holds] using Config.wf_holds h .settlePositive
  pollLimit := (pollLimit_ne_zero_iff _).mp (Config.pollLimit_ne_zero h)
  fifoFull := (oneBit_iff_isSingleBit _).mp (Config.wf_holds h .fifoFullOneBit)
  resetCore := (oneBit_iff_isSingleBit _).mp (Bool.and_eq_true_iff.mp (Config.wf_holds h .coreBitsOneBit)).1
  enableCore := (oneBit_iff_isSingleBit _).mp (Bool.and_eq_true_iff.mp (Config.wf_holds h .coreBitsOneBit)).2
  aligned := by simpa [Config.holds, Config.loaderOffsets] using Config.wf_holds h .loaderAligned
  distinct := of_decide_eq_true (Config.wf_holds h .loaderDistinct)
  loaderFits _ ho := (Config.loader_onWindow h ho).2
  commandFlags := by
    simpa [Config.holds, oneBit_iff_isSingleBit, and_assoc] using Config.wf_holds h .commandFlagsOneBit
  commandDistinct := of_decide_eq_true (Config.wf_holds h .commandFlagsDistinct)
  statusFlags := by
    obtain ⟨hdone, herror⟩ := Bool.and_eq_true_iff.mp (Config.wf_holds h .statusFlagsOneBit)
    exact ⟨(oneBit_iff_isSingleBit _).mp hdone, (oneBit_iff_isSingleBit _).mp herror,
      bne_iff_ne.mp (Config.wf_holds h .statusFlagsDistinct)⟩
  xlast := (isSingleBit_and_three_eq_zero_iff _).mp
    ⟨(oneBit_iff_isSingleBit _).mp (Config.wf_holds h .xlastOneBit), eq_of_beq (Config.wf_holds h .xlastAboveSize)⟩
  csrFits o ho := slot_eq_div_mul o ▸ Config.csr_inWindow h ho
  am := of_decide_eq_true (Config.wf_holds h .amSixBits)

/-- The domains of R8 and the constraints of R9 give each check. -/
theorem Config.holds_of_asSpecified {c : Config} (h : c.AsSpecified) (k : ConfigCheck) : c.holds k = true := by
  obtain ⟨hxlastBit, hxlastAbove⟩ := (isSingleBit_and_three_eq_zero_iff c.xlast).mpr h.xlast
  obtain ⟨hdone, herror, hne⟩ := h.statusFlags
  cases k with
  | winSizeAligned => simpa [Config.holds] using h.winSize
  | ldrBaseAligned => simpa [Config.holds] using h.ldrBase
  | settlePositive => simpa [Config.holds] using h.settle
  | pollLimitPositive => exact bne_iff_ne.mpr ((pollLimit_ne_zero_iff _).mpr h.pollLimit)
  | fifoFullOneBit => exact (oneBit_iff_isSingleBit _).mpr h.fifoFull
  | coreBitsOneBit => simpa [Config.holds, oneBit_iff_isSingleBit] using And.intro h.resetCore h.enableCore
  | loaderAligned => simpa [Config.holds, Config.loaderOffsets] using h.aligned
  | loaderDistinct => exact decide_eq_true h.distinct
  | loaderInWindow => exact List.all_eq_true.mpr fun o ho => decide_eq_true (h.loaderFits o ho)
  | commandFlagsOneBit => simpa [Config.holds, oneBit_iff_isSingleBit, and_assoc] using h.commandFlags
  | commandFlagsDistinct => exact decide_eq_true h.commandDistinct
  | statusFlagsOneBit => simpa [Config.holds, oneBit_iff_isSingleBit] using And.intro hdone herror
  | statusFlagsDistinct => exact bne_iff_ne.mpr hne
  | xlastOneBit => exact (oneBit_iff_isSingleBit _).mpr hxlastBit
  | xlastAboveSize => exact beq_iff_eq.mpr hxlastAbove
  | csrInWindow => exact List.all_eq_true.mpr fun o ho => decide_eq_true (slot_eq_div_mul o ▸ h.csrFits o ho)
  | amSixBits => exact decide_eq_true h.am

/-- A machine is built for a configuration exactly when it meets R8 and R9. -/
theorem Config.wf_iff_asSpecified (c : Config) : c.wf = true ↔ c.AsSpecified :=
  ⟨Config.asSpecified_of_wf, fun h => List.all_eq_true.mpr fun k _ => Config.holds_of_asSpecified h k⟩

end Sys2Proof

namespace Sys2Proof.Machine

open Sys2Proof

/-! ### Which steps are refused for their configuration -/

/-- The sequencer's own step is never refused. -/
theorem advance_ne_refused {s : State} (hc : s.cfg.wf = true) (r : Refusal) : advance s ≠ .refused r := by
  unfold advance
  split
  · exact (exec_sound hc _).2 r
  · simp

/-- Nor is a step in which a command word is offered. -/
theorem offerWord_ne_refused {s : State} (hc : s.cfg.wf = true) (cw : Word) (r : Refusal) :
    offerWord cw s ≠ .refused r := by
  unfold offerWord
  split
  · split
    · exact (exec_sound hc _).2 r
    · simp
  · simp

/-- An input of the host is refused for a broken duty of the host only. -/
theorem hostInput_refused {s : State} (hc : s.cfg.wf = true) {e : HostInput} {r : Refusal}
    (h : hostInput e s = .refused r) : ∃ d, r = .hostDuty d := by
  cases e with
  | tick => exact absurd h (advance_ne_refused hc r)
  | offer cw => exact absurd h (offerWord_ne_refused hc cw r)
  | setWindow m =>
    simp only [hostInput, setWindow] at h
    split at h
    · cases h; exact ⟨_, rfl⟩
    · cases h
  | setImage b =>
    simp only [hostInput, setImage] at h
    split at h
    · cases h; exact ⟨_, rfl⟩
    · cases h
  | write | reset | waitDone | skipUnlessSuccess => cases h

/-- On a configuration a machine is built for, a step is refused for a broken duty of the host only. -/
theorem stepInput_refused {s : State} (hc : s.cfg.wf = true) {r : Refusal} (h : stepInput s = .refused r) :
    ∃ d, r = .hostDuty d := by
  unfold stepInput at h
  split at h
  · exact absurd h (advance_ne_refused hc r)
  · split at h
    · exact absurd h (advance_ne_refused hc r)
    · exact hostInput_refused (by exact hc) h

/-- A step is refused for its configuration exactly when the configuration is not well-formed. -/
theorem step_refused_configuration_iff (s : State) :
    (∃ k, step s = .refused (.configuration k)) ↔ ¬ s.cfg.wf = true := by
  constructor
  · rintro ⟨k, h⟩ hc
    obtain ⟨d, hd⟩ := stepInput_refused hc (step_of_wf hc ▸ h)
    cases hd
  · intro hc
    obtain ⟨k, hk⟩ := Option.ne_none_iff_exists'.mp (mt Config.firstBroken_eq_none_iff.mp hc)
    exact ⟨k, by simp [step, hk]⟩

/-- Settles O58: the checks are the written-out constraints, and a step is refused for its configuration exactly when one
of them is broken. -/
theorem configurationRefused : Obligations.ConfigurationRefused := by
  unfold Obligations.ConfigurationRefused
  intro s
  exact (step_refused_configuration_iff s).trans (not_congr (Config.wf_iff_asSpecified s.cfg))

end Sys2Proof.Machine
end

section
/-! PROOFS. Acceptance and dispatch (O6, O57), the state after reset (O12), and what the inversion of a step
gives at once: events, control transfer and the frame of the sequencer's registers (O47, O50, O52, O53, O54). -/

namespace Sys2Proof.Machine

open Sys2Proof

variable {s t : State}

/-! ### Acceptance and dispatch -/

/-- Every command given in `IDLE` is accepted, in its first phase and with the operands R92 lists for it (R90). -/
theorem exec_of_idle (hp : s.phase = .idle) (i : Instr) :
    exec i s = .next (s.accept i (firstPhase i) (latchedOperands i s)) := by
  cases i <;>
    simp only [exec, execCsrRead, execCsrWrite, execUnlock, execIsActive, execLoad, execActivate, hp] <;> rfl

/-- The sequencer's own step is one phase of the command in progress. -/
theorem advance_of_current {i : Instr} (h : s.current = some i) : advance s = exec i s := by
  simp [advance, h]

/-- A word that decodes is, in `IDLE`, a step of its command. -/
theorem offerWord_of_decode {cw : Word} {i : Instr} (hp : s.phase = .idle) (hd : decode cw = .ok i) :
    offerWord cw s = exec i s := by
  simp [offerWord, hp, hd]

/-- Settles O6: by the head of the host's inputs. -/
theorem stepRunsTheCommand : Obligations.StepRunsTheCommand := by
  unfold Obligations.StepRunsTheCommand
  refine ⟨fun s cw i rest hc hp hi hd => ?_, fun s i hc hi hcur => ?_, fun s i rest hc hi hcur => ?_⟩
  · rw [step_of_wf hc, stepInput_offer hi]
    exact offerWord_of_decode hp hd
  · rw [step_of_wf hc, stepInput_nil hi]
    exact advance_of_current hcur
  · rw [step_of_wf hc, stepInput_tick hi]
    exact advance_of_current hcur

/-- Settles O57: acceptance empties the working registers, and what it latches does not depend on them. -/
theorem commandForgetsWorkingState : Obligations.CommandForgetsWorkingState := by
  unfold Obligations.CommandForgetsWorkingState
  intro i s w hp
  rw [exec_of_idle hp, exec_of_idle (s := { s with work := w }) hp]
  cases i <;> rfl

/-- Settles O12: the fields of `State.resetWith`, as R33 lists them. -/
theorem resetState : Obligations.ResetState := by
  unfold Obligations.ResetState
  exact fun _ => ⟨rfl, rfl, rfl, rfl, rfl⟩

/-! ### Events, control transfer and frame of one step -/

/-- Every step, a reset too, keeps the configuration and adds at most one event (R8, R22). -/
theorem step_cfg_event (h : step s = .next t) :
    t.cfg = s.cfg ∧ ((t.trace = s.trace ∧ t.window = s.window) ∨
      ∃ e, t.trace = e :: s.trace ∧ e.onWindow s.cfg ∧ t.window = windowAfter s.window e) := by
  rcases step_effect h with ⟨landed, rest, -, rfl⟩ | he
  · obtain ⟨hcfg, -, -, -, hevent⟩ :=
      applyReset_effect (s := { s with inputs := rest }) (wf_of_step_next h).1 landed
    exact ⟨hcfg, hevent⟩
  · exact ⟨he.cfg, he.event⟩

/-- A step is a reset, or has the frame of `StepEffect`. -/
theorem step_reset_or_effect (h : step s = .next t) :
    (∃ landed rest, s.inputs = .reset landed :: rest) ∨ StepEffect s t :=
  (step_effect h).imp_left fun ⟨landed, rest, hi, _⟩ => ⟨landed, rest, hi⟩

/-- Settles O47: the event of a step, reset or not, with the window after it. -/
theorem oneEventPerStep : Obligations.OneEventPerStep := by
  unfold Obligations.OneEventPerStep
  intro s t h
  refine (step_cfg_event h).2.imp_right fun ⟨e, htrace, _, hwindow⟩ => ⟨e, htrace, hwindow.trans ?_⟩
  cases e <;> rfl

/-- Settles O50: the control transfer of `StepEffect`. -/
theorem phaseSuccessors : Obligations.PhaseSuccessors := by
  unfold Obligations.PhaseSuccessors
  exact fun s t h => (step_reset_or_effect h).imp_right StepEffect.phase

/-- Settles O52: the frame of `FAULT_INFO` in `StepEffect`. -/
theorem faultInfoWrittenByFaultOnly : Obligations.FaultInfoWrittenByFaultOnly := by
  unfold Obligations.FaultInfoWrittenByFaultOnly
  exact fun s t h hne => (step_reset_or_effect h).imp_right fun he => he.faultInfo.resolve_left hne

/-- Settles O53: the frame of `RDATA` and of `ACTIVE` in `StepEffect`. -/
theorem resultFieldsHaveOneWriter : Obligations.ResultFieldsHaveOneWriter := by
  unfold Obligations.ResultFieldsHaveOneWriter
  exact fun s t h => (step_reset_or_effect h).imp_right fun he => ⟨he.rdata.resolve_left, he.active.resolve_left⟩

/-- Settles O54: no step changes the configuration, and only acceptance, in `IDLE`, and reset change the operands. -/
theorem operandsHeld : Obligations.OperandsHeld := by
  unfold Obligations.OperandsHeld
  exact fun s t h => ⟨(step_cfg_event h).1, fun hp =>
    (step_reset_or_effect h).imp_right fun he => he.operands.resolve_right hp⟩

end Sys2Proof.Machine
end

section
/-! PROOFS. The rules of the invariant (O44): what it says of the working registers in each phase that reads one, and
that each operation of the sequencer leads from it to it. -/

namespace Sys2Proof.Machine

open Sys2Proof

variable {s t : State}

/-! ### The working registers, phase by phase -/

theorem State.workOk_trigger (hp : s.phase = .ulTrig ∨ s.phase = .ldTrig) :
    s.workOk ↔ ∃ j, s.work.j = some j ∧ j < 8 := by
  rcases hp with hp | hp <;> simp only [State.workOk, hp]

theorem State.workOk_ldPollf (hp : s.phase = .ldPollf) :
    s.workOk ↔ (∃ n, s.work.n = some n ∧ n % 4 = 0 ∧ n < imageLen s + 4) ∧ s.pollCounted := by
  simp only [State.workOk, hp]

theorem State.workOk_chunk (hp : s.phase = .ldCtl ∨ s.phase = .ldData) :
    s.workOk ↔ (∃ n, s.work.n = some n ∧ n % 4 = 0 ∧ n < imageLen s) ∧ s.work.pcCnt = some 0 := by
  rcases hp with hp | hp <;> simp only [State.workOk, hp]

theorem State.workOk_ldPolld (hp : s.phase = .ldPolld) :
    s.workOk ↔ (∃ n, s.work.n = some n ∧ n % 4 = 0 ∧ imageLen s ≤ n ∧ n < imageLen s + 4) ∧ s.pollCounted := by
  simp only [State.workOk, hp]

theorem State.workOk_ldExit (hp : s.phase = .ldExit) :
    s.workOk ↔ ∃ r, s.work.res = some r ∧
      (r = .success ∨ r = .bitstreamRejected ∨ (r = .timeout ∧ s.cfg.pollLimit ≠ none)) := by
  simp only [State.workOk, hp]

theorem State.workOk_acAder (hp : s.phase = .acAder) : s.workOk ↔ s.relocating := by
  simp only [State.workOk, hp]

theorem State.workOk_acRb (hp : s.phase = .acRb) :
    s.workOk ↔ s.cfg.readback = true ∧ ∃ w, s.work.rb = some w ∧ (w = .ader → s.relocating) := by
  simp only [State.workOk, hp]

/-- The other phases read no working register. -/
theorem State.workOk_of_reads_none (hp : s.phase ∈ [Phase.idle, .fault, .crRd, .cwWr, .ulChk, .iaRd, .ldChk, .ldDet,
    .ldSwrst, .ldStart, .acRst, .acWait, .acDis, .acWb, .acVec, .acLvl, .acEn]) : s.workOk := by
  unfold State.workOk
  cases hq : s.phase <;> simp [hq] at hp ⊢

/-! ### The phases of a session and of ACTIVATE -/

/-- A session is LOAD's, past its window check and its image check. -/
theorem Phase.of_inSession {p : Phase} (h : p.inSession = true) :
    p.needsWindow = true ∧ p.needsImage = true ∧ ∀ b, p.command b = some .load := by
  cases p <;> simp [Phase.inSession, Phase.needsWindow, Phase.needsImage, Phase.command] at h ⊢

/-- ACTIVATE has no image check and no session. -/
theorem Phase.of_command_activate {p : Phase} {b : Byte} (h : p.command b = some .activate) :
    p.needsImage = false ∧ p.inSession = false := by
  cases p <;> simp [Phase.inSession, Phase.needsImage, Phase.command] at h ⊢

/-- A first phase (R90) asks for nothing yet, and is a phase of its command. -/
theorem firstPhase_asks_nothing (i : Instr) :
    (firstPhase i).needsWindow = false ∧ (firstPhase i).needsImage = false ∧ (firstPhase i).inSession = false := by
  cases i <;> exact ⟨rfl, rfl, rfl⟩

/-- The command in progress is the phase's own (R22). -/
theorem State.current_of_phase {p : Phase} (hp : s.phase = p) : s.current = p.command s.operands.argByte :=
  congrArg (fun q : Phase => q.command s.operands.argByte) hp

/-- A command in progress is neither idle nor faulted. -/
theorem phase_ne_of_command {p : Phase} {b : Byte} {i : Instr} (h : p.command b = some i) : p ≠ .idle ∧ p ≠ .fault := by
  constructor <;> rintro rfl <;> cases h

/-! ### The invariant in IDLE and after reset -/

/-- In `IDLE` the invariant is about the status, `FAULT_INFO` and the window only. -/
theorem State.inv_of_idle (hp : s.phase = .idle) (hbusy : s.status.busy = false) (hfault : s.status.fault = false)
    (hinfo : s.faultInfo = FaultInfo.reset) (hwindow : s.window.wf = true) : s.Inv where
  busy := by simp [hp, hbusy]
  fault := by simp [hp, hfault]
  cause := by simp [hp, hinfo, FaultInfo.reset]
  info := by simp [hinfo, FaultInfo.reset]
  outcome := by simp [hbusy]
  opcode := by simp [State.current, Phase.command, hp]
  mapped := by simp [Phase.needsWindow, hp]
  image := by simp [Phase.needsImage, hp]
  active := by simp [Phase.inSession, hp]
  work := State.workOk_of_reads_none (by simp [hp])
  window := hwindow

/-- Settles O44: reset is an `IDLE` state with nothing on the window. -/
theorem resetMeetsInvariant : Obligations.ResetMeetsInvariant := by
  unfold Obligations.ResetMeetsInvariant
  exact fun _ => State.inv_of_idle rfl rfl rfl rfl rfl

/-- An event keeps the canonical form of the window. -/
theorem windowAfter_wf {m : Memory} (h : m.wf = true) (e : BusEvent) : (windowAfter m e).wf = true := by
  cases e with
  | write a v => exact Memory.wf_writeWord m a v h
  | read | error | delay => exact h

namespace State.Inv

theorem status_fault (h : s.Inv) (hp : s.phase ≠ .fault) : s.status.fault = false :=
  Bool.eq_false_of_not_eq_true fun hf => hp (h.fault.mp hf)

/-- Outside `FAULT`, `FAULT_INFO` is cleared. -/
theorem faultInfo_eq_reset (h : s.Inv) (hp : s.phase ≠ .fault) : s.faultInfo = FaultInfo.reset := by
  have hcause : s.faultInfo.cause = .none := not_not.mp fun hc => hp (h.cause.mp hc)
  have hinfo := h.info hp
  cases hf : s.faultInfo with
  | mk cause info => simp_all [FaultInfo.reset]

/-- A step of the host changes nothing the invariant speaks of: a dropped word sets `OVR` only (R235). -/
theorem hostSide (h : s.Inv) (port : HostPort) (winMapped : Bool) (image : List Byte) (inputs : List HostInput)
    (ovr : Bool) : State.Inv { s with port := port, winMapped := winMapped, image := image, inputs := inputs
                                      status := { s.status with ovr := ovr } } :=
  ⟨h.busy, h.fault, h.cause, h.info, h.outcome, h.opcode, h.mapped, h.image, h.active, h.work, h.window⟩

/-- A refused word is refused in `IDLE`, where `OUTCOME` is free (R93). -/
theorem refuse (h : s.Inv) (hp : s.phase = .idle) : s.refuse.Inv :=
  State.inv_of_idle hp (Bool.eq_false_of_not_eq_true fun hb => h.busy.mp hb hp) (h.status_fault (by simp [hp]))
    (h.faultInfo_eq_reset (by simp [hp])) h.window

/-- Reset (R33, R260). -/
theorem applyReset (h : s.Inv) (hc : s.cfg.wf = true) (landed : Bool) : (applyReset landed s).Inv := by
  obtain ⟨hphase, hstatus, hinfo, -⟩ := applyReset_registers landed s
  obtain ⟨-, -, -, -, hevent⟩ := applyReset_effect hc landed
  refine State.inv_of_idle hphase (by rw [hstatus]; rfl) (by rw [hstatus]; rfl) hinfo ?_
  rcases hevent with ⟨-, hw⟩ | ⟨e, -, -, hw⟩
  · rw [hw]; exact h.window
  · rw [hw]; exact windowAfter_wf h.window e

/-! ### The operations of a command -/

/-- Acceptance (R90). -/
theorem accept (h : s.Inv) (hp : s.phase = .idle) (i : Instr) (latched : Operands) :
    (s.accept i (firstPhase i) latched).Inv := by
  obtain ⟨hwin, himg, hses⟩ := firstPhase_asks_nothing i
  have hinfo := h.faultInfo_eq_reset (by simp [hp])
  have hfault := h.status_fault (by simp [hp])
  have hfirst : firstPhase i ≠ .idle ∧ firstPhase i ≠ .fault := by cases i <;> simp [firstPhase]
  constructor
  case opcode =>
    intro i' hi'
    cases i <;> (cases hi'; rfl)
  case work => exact State.workOk_of_reads_none (by cases i <;> simp [firstPhase])
  all_goals simp [hwin, himg, hses, hinfo, hfault, hfirst, FaultInfo.reset, h.window]

/-- `finish(o)`, whatever the last phase wrote to the working registers (R234). -/
theorem finish (h : s.Inv) (hp : s.phase ≠ .fault) {w : Working} (o : CmdOutcome) :
    (State.finish o { s with work := w }).Inv :=
  State.inv_of_idle rfl rfl (h.status_fault hp) (h.faultInfo_eq_reset hp) h.window

/-- A fault of R236, raised by a command in progress. -/
theorem raiseFault (h : s.Inv) (hp : s.phase ≠ .idle) {c : FaultCause} (hc : c ≠ .none) (x : Word) :
    (s.raiseFault c x).Inv where
  busy := by simp [h.busy, hp]
  fault := by simp
  cause := by simp [hc]
  info := by simp
  outcome := h.outcome
  opcode := by simp [State.current, Phase.command]
  mapped := by simp [Phase.needsWindow]
  image := by simp [Phase.needsImage]
  active := by simp [Phase.inSession]
  work := State.workOk_of_reads_none (by simp)
  window := h.window

/-- A completed access or a delay: the device, the record, the window and `rd` change. -/
theorem access (h : s.Inv) {d : Device} {tr : List BusEvent} {m : Memory} {rd : Option Word} (hm : m.wf = true) :
    State.Inv { s with device := d, trace := tr, window := m, work := { s.work with rd := rd } } :=
  ⟨h.busy, h.fault, h.cause, h.info, h.outcome, h.opcode, h.mapped, h.image, h.active, h.work, hm⟩

/-- `RDATA` is under no rule of the invariant. -/
theorem setRdata (h : s.Inv) (b : Byte) : (s.setRdata b).Inv :=
  ⟨h.busy, h.fault, h.cause, h.info, h.outcome, h.opcode, h.mapped, h.image, h.active, h.work, h.window⟩

/-- `ACTIVE` is free outside a session. -/
theorem setActive (h : s.Inv) (hp : s.phase.inSession = false) (b : Bool) : (s.setActive b).Inv :=
  ⟨h.busy, h.fault, h.cause, h.info, h.outcome, h.opcode, h.mapped, h.image, fun hs => by simp [hp] at hs, h.work,
    h.window⟩

/-- A command in progress goes on to the phase `q` of its own: what `q` asks for must be there. -/
theorem enter (h : s.Inv) {i : Instr} (hi : s.current = some i) {q : Phase} {w : Working} {d : Nat}
    (hq : q.command s.operands.argByte = some i) (hwin : q.needsWindow = true → s.operands.winValid = true)
    (himg : q.needsImage = true → s.operands.imgValid = true ∧ 0 < imageLen s)
    (hses : q.inSession = true → s.status.active = true)
    (hwork : State.workOk { s with phase := q, work := w, draws := d }) :
    State.Inv { s with phase := q, work := w, draws := d } := by
  obtain ⟨hidle, hfault⟩ := phase_ne_of_command hi
  obtain ⟨hqidle, hqfault⟩ := phase_ne_of_command hq
  refine ⟨?_, ?_, ?_, fun _ => h.info hfault, h.outcome, fun i' hi' => ?_, hwin, himg, hses, hwork, h.window⟩
  · simp [h.busy, hidle, hqidle]
  · simp [h.fault, hfault, hqfault]
  · simp [h.cause, hfault, hqfault]
  · exact h.opcode i' (hi.trans (hq.symm.trans hi'))

/-- From phase to phase of a session, only the working registers are at stake. -/
theorem enterSession (h : s.Inv) (hs : s.phase.inSession = true) {q : Phase} {w : Working} {d : Nat}
    (hq : q.inSession = true) (hwork : State.workOk { s with phase := q, work := w, draws := d }) :
    State.Inv { s with phase := q, work := w, draws := d } := by
  obtain ⟨hswin, hsimg, hscmd⟩ := Phase.of_inSession hs
  obtain ⟨-, -, hqcmd⟩ := Phase.of_inSession hq
  exact h.enter (hscmd _) (hqcmd _) (fun _ => h.mapped hswin) (fun _ => h.image hsimg) (fun _ => h.active hs) hwork

/-- From phase to phase of ACTIVATE with a mapped window, likewise. -/
theorem enterActivate (h : s.Inv) (hi : s.current = some .activate) (hw : s.operands.winValid = true) {q : Phase}
    {w : Working} {d : Nat} (hq : q.command s.operands.argByte = some .activate)
    (hwork : State.workOk { s with phase := q, work := w, draws := d }) :
    State.Inv { s with phase := q, work := w, draws := d } := by
  obtain ⟨hqimg, hqses⟩ := Phase.of_command_activate hq
  exact h.enter hi hq (fun _ => hw) (by simp [hqimg]) (by simp [hqses]) hwork

end State.Inv

end Sys2Proof.Machine
end

section
/-! PROOFS. Every step keeps the invariant, and from a state of it no step reads an unwritten working register (O45,
O46): one lemma a phase, over the rules of the invariant. -/

namespace Sys2Proof.Machine

open Sys2Proof

/-! ### Results that keep the invariant -/

/-- A result of a state of the invariant: no fault of the model (R28), and a next state is of the invariant. -/
def Keeps (r : StepResult) : Prop := (∀ f, r ≠ .fault f) ∧ ∀ t, r = .next t → t.Inv

/-- `u` is `s`, a state of the invariant, after one completed access: the phase and what it reads are as before. -/
structure Accessed (s u : State) : Prop where
  inv : u.Inv
  phase : u.phase = s.phase
  cfg : u.cfg = s.cfg
  operands : u.operands = s.operands
  work : ∃ rd, u.work = { s.work with rd := rd }

variable {s u : State}

theorem Accessed.current (h : Accessed s u) : u.current = s.current := by
  simp [State.current, h.phase, h.operands]

theorem Accessed.relocating (h : Accessed s u) (hr : s.relocating) : u.relocating := by
  obtain ⟨k, hk, hlt, htup⟩ := hr
  obtain ⟨rd, hwork⟩ := h.work
  exact ⟨k, by rw [hwork]; exact hk, hlt, by rw [hwork, h.cfg, h.operands]; exact htup⟩

theorem Keeps.next {t : State} (h : t.Inv) : Keeps (.next t) :=
  ⟨nofun, fun _ e => by cases e; exact h⟩

theorem Keeps.need {α : Type} {r : WorkReg} {v : Option α} {x : α} {k : α → StepResult} (hv : v = some x)
    (hk : Keeps (k x)) : Keeps (need r v k) := by
  rw [hv]; exact hk

theorem Keeps.withWindow {opc : BitVec 4} {k : State → StepResult} (h : s.Inv) (hp : s.phase ≠ .idle)
    (hk : s.operands.winValid = true → Keeps (k s)) : Keeps (withWindow opc k s) :=
  withWindow_elim (P := Keeps) (fun _ => .next (h.raiseFault hp (by decide) _)) hk

/-- A transaction keeps the invariant if what follows it does. -/
theorem Keeps.transact {a : Nat} {k : Word → State → StepResult} (h : s.Inv) (hp : s.phase ≠ .idle)
    (hk : ∀ v, Keeps (k v s.answered)) : Keeps (transact a k s) := by
  have herror : (s.answered.record (.error a)).Inv := h.access (rd := s.work.rd) h.window
  exact transact_elim (P := Keeps) (fun _ => .next (h.raiseFault hp (by decide) _))
    (fun _ _ => .next (herror.raiseFault hp (by decide) _)) (fun _ _ => .next h) (fun _ _ _ _ _ _ => hk _)

theorem Keeps.memWrite {a : Nat} {v : Word} {k : State → StepResult} (h : s.Inv) (hp : s.phase ≠ .idle)
    (hk : ∀ u, Accessed s u → Keeps (k u)) : Keeps (memWrite a v k s) :=
  .transact h hp fun _ => hk _
    ⟨h.access (rd := s.work.rd) (Memory.wf_writeWord s.window a v h.window), rfl, rfl, rfl, _, rfl⟩

theorem Keeps.memRead {a : Nat} {k : Word → State → StepResult} (h : s.Inv) (hp : s.phase ≠ .idle)
    (hk : ∀ v u, Accessed s u → Keeps (k v u)) : Keeps (memRead a k s) :=
  .transact h hp fun v => hk v _ ⟨h.access h.window, rfl, rfl, rfl, _, rfl⟩

/-! ### CSR_READ, CSR_WRITE, IS_ACTIVE -/

theorem phaseCrRd_keeps (h : s.Inv) (hp : s.phase = .crRd) : Keeps (phaseCrRd s) :=
  .withWindow h (by simp [hp]) fun _ => .memRead h (by simp [hp]) fun v _ hu =>
    .next ((hu.inv.setRdata (csrByte v)).finish (by simp [hu.phase, hp]) _)

theorem phaseCwWr_keeps (h : s.Inv) (hp : s.phase = .cwWr) : Keeps (phaseCwWr s) :=
  .withWindow h (by simp [hp]) fun _ => .memWrite h (by simp [hp]) fun _ hu =>
    .next (hu.inv.finish (by simp [hu.phase, hp]) _)

theorem phaseIaRd_keeps (h : s.Inv) (hp : s.phase = .iaRd) : Keeps (phaseIaRd s) :=
  .withWindow h (by simp [hp]) fun _ => .memRead h (by simp [hp]) fun v u hu =>
    .next ((hu.inv.setActive (by rw [hu.phase, hp]; rfl) (idMatches u.cfg v)).finish (by simp [hu.phase, hp]) _)

/-! ### UNLOCK, and the trigger writes it shares with LOAD -/

/-- One trigger write: `j` is below 8, and stays so unless this was the eighth. -/
theorem unlockTurn_keeps (h : s.Inv) (hp : s.phase = .ulTrig ∨ s.phase = .ldTrig) {done : State → StepResult}
    (hd : ∀ u, Accessed s u → Keeps (done (u.setJ 8))) : Keeps (unlockTurn done s) := by
  obtain ⟨j, hj, hlt⟩ := (State.workOk_trigger hp).mp h.work
  obtain ⟨i, hi⟩ : ∃ i, s.current = some i := by
    rcases hp with hp | hp <;> exact ⟨_, State.current_of_phase hp⟩
  refine .need hj ?_
  rw [if_pos hlt]
  refine .memWrite h (phase_ne_idle_of_current hi) fun u hu => ?_
  split
  next hlt' =>
    have hiu := hu.current.trans hi
    exact .next (hu.inv.enter hiu hiu hu.inv.mapped hu.inv.image hu.inv.active
      ((State.workOk_trigger (by rw [← hu.phase] at hp; exact hp)).mpr ⟨j + 1, rfl, hlt'⟩))
  next hge =>
    obtain rfl : j = 7 := by omega
    exact hd u hu

theorem phaseUlChk_keeps (h : s.Inv) (hp : s.phase = .ulChk) : Keeps (phaseUlChk s) := by
  unfold phaseUlChk
  split
  next hw =>
    exact .next (h.enter (State.current_of_phase hp) rfl (fun _ => hw) nofun nofun
      ((State.workOk_trigger (.inl rfl)).mpr ⟨0, rfl, by decide⟩))
  next => exact .next (h.finish (by simp [hp]) _)

theorem phaseUlTrig_keeps (h : s.Inv) (hp : s.phase = .ulTrig) : Keeps (phaseUlTrig s) :=
  unlockTurn_keeps h (.inl hp) fun _ hu => .next (hu.inv.finish (by simp [hu.phase, hp]) _)

/-! ### LOAD -/

theorem phaseLdChk_keeps (h : s.Inv) (hp : s.phase = .ldChk) : Keeps (phaseLdChk s) := by
  have hne : s.phase ≠ .fault := by simp [hp]
  unfold phaseLdChk
  split
  next => exact .next (h.finish hne _)
  next himg =>
    simp only [not_or, Bool.not_eq_false] at himg
    split
    next hw =>
      exact .next (h.enter (State.current_of_phase hp) rfl (fun _ => hw)
        (fun _ => ⟨himg.1, Nat.pos_of_ne_zero himg.2⟩) nofun
        ((State.workOk_trigger (.inr rfl)).mpr ⟨0, rfl, by decide⟩))
    next => exact .next (h.finish hne _)

theorem phaseLdTrig_keeps (h : s.Inv) (hp : s.phase = .ldTrig) : Keeps (phaseLdTrig s) := by
  refine unlockTurn_keeps h (.inr hp) fun u hu => ?_
  have hpu := hu.phase.trans hp
  exact .next (hu.inv.enter (State.current_of_phase hpu) rfl (fun _ => hu.inv.mapped (by rw [hpu]; rfl))
    (fun _ => hu.inv.image (by rw [hpu]; rfl)) nofun (State.workOk_of_reads_none (by simp)))

theorem phaseLdDet_keeps (h : s.Inv) (hp : s.phase = .ldDet) : Keeps (phaseLdDet s) := by
  unfold phaseLdDet readActive
  refine .memRead h (by simp [hp]) fun v u hu => ?_
  have hpu := hu.phase.trans hp
  have hset := hu.inv.setActive (by rw [hpu]; rfl)
  dsimp only
  split
  next =>
    exact .next ((hset true).enter (i := .load) (State.current_of_phase hpu) rfl
      (fun _ => hu.inv.mapped (by rw [hpu]; rfl)) (fun _ => hu.inv.image (by rw [hpu]; rfl)) (fun _ => rfl)
      (State.workOk_of_reads_none (by simp)))
  next => exact .next ((hset false).finish (by simp [hpu]) _)

theorem phaseLdSwrst_keeps (h : s.Inv) (hp : s.phase = .ldSwrst) : Keeps (phaseLdSwrst s) :=
  .memWrite h (by simp [hp]) fun _ hu =>
    .next (hu.inv.enterSession (by rw [hu.phase, hp]; rfl) rfl (State.workOk_of_reads_none (by simp)))

/-- A poll counter of 0 is below every bound (R8). -/
theorem State.pollCounted_zero (hc : s.cfg.wf = true) (h : s.work.pcCnt = some 0) : s.pollCounted :=
  ⟨0, h, fun _ hm => Nat.pos_of_ne_zero fun h0 => Config.pollLimit_ne_zero hc (h0 ▸ hm)⟩

theorem phaseLdStart_keeps (h : s.Inv) (hc : s.cfg.wf = true) (hp : s.phase = .ldStart) : Keeps (phaseLdStart s) := by
  refine .memWrite h (by simp [hp]) fun u hu => ?_
  have hcu : u.cfg.wf = true := hu.cfg ▸ hc
  exact .next (hu.inv.enterSession (by rw [hu.phase, hp]; rfl) rfl ((State.workOk_ldPollf rfl).mpr
    ⟨⟨0, rfl, rfl, Nat.succ_pos _⟩, State.pollCounted_zero hcu rfl⟩))

/-- The poll counter is below the bound in both polls. -/
theorem State.Inv.pollCounted (h : s.Inv) (hp : s.phase = .ldPollf ∨ s.phase = .ldPolld) : s.pollCounted := by
  rcases hp with hp | hp
  · exact ((State.workOk_ldPollf hp).mp h.work).2
  · exact ((State.workOk_ldPolld hp).mp h.work).2

/-- Only the poll counter of a poll's working registers is at stake when the poll is repeated. -/
theorem State.Inv.setPcCnt (h : s.Inv) (hp : s.phase = .ldPollf ∨ s.phase = .ldPolld) {cnt : Nat}
    (hcnt : (s.setPcCnt cnt).pollCounted) : (s.setPcCnt cnt).Inv := by
  have hs : s.phase.inSession = true := by rcases hp with hp | hp <;> rw [hp] <;> rfl
  refine h.enterSession hs hs ?_
  rcases hp with hp | hp
  · exact (State.workOk_ldPollf (s := s.setPcCnt cnt) hp).mpr ⟨((State.workOk_ldPollf hp).mp h.work).1, hcnt⟩
  · exact (State.workOk_ldPolld (s := s.setPcCnt cnt) hp).mpr ⟨((State.workOk_ldPolld hp).mp h.work).1, hcnt⟩

/-- An unsatisfied poll: the counter stays below the bound, or LOAD goes to its exit with `Timeout` (R173). -/
theorem pollAgain_keeps (h : s.Inv) (hp : s.phase = .ldPollf ∨ s.phase = .ldPolld) : Keeps (pollAgain s) := by
  obtain ⟨cnt, hcnt, hlt⟩ := h.pollCounted hp
  refine .need hcnt ?_
  split
  next hlim =>
    have hlim' : s.cfg.pollLimit = some (cnt + 1) := by simpa [limitReached] using hlim
    exact .next (h.enterSession (by rcases hp with hp | hp <;> rw [hp] <;> rfl) rfl
      ((State.workOk_ldExit rfl).mpr ⟨.timeout, rfl, .inr (.inr ⟨rfl, by simp [hlim']⟩)⟩))
  next hlim =>
    have hlim' : s.cfg.pollLimit ≠ some (cnt + 1) := by simpa [limitReached] using hlim
    refine .next (h.setPcCnt hp ⟨cnt + 1, rfl, fun m hm => ?_⟩)
    exact Nat.lt_of_le_of_ne (hlt m hm) fun he => hlim' (he ▸ hm)

theorem phaseLdPollf_keeps (h : s.Inv) (hc : s.cfg.wf = true) (hp : s.phase = .ldPollf) : Keeps (phaseLdPollf s) := by
  obtain ⟨⟨n, hn, hmod, hlt⟩, -⟩ := (State.workOk_ldPollf hp).mp h.work
  refine .need hn ?_
  split
  next hle =>
    exact .next (h.enterSession (by rw [hp]; rfl) rfl ((State.workOk_ldPolld rfl).mpr
      ⟨⟨n, hn, hmod, hle, hlt⟩, State.pollCounted_zero hc rfl⟩))
  next hgt =>
    refine .memRead h (by simp [hp]) fun v u hu => ?_
    have hpu := hu.phase.trans hp
    obtain ⟨rd, hwork⟩ := hu.work
    split
    next => exact pollAgain_keeps hu.inv (.inl hpu)
    next =>
      have hnu : u.work.n = some n := by rw [hwork]; exact hn
      have hltu : n < imageLen u := by rw [imageLen, hu.operands]; exact Nat.lt_of_not_le hgt
      exact .next (hu.inv.enterSession (by rw [hpu]; rfl) rfl ((State.workOk_chunk (.inl rfl)).mpr
        ⟨⟨n, hnu, hmod, hltu⟩, rfl⟩))

theorem phaseLdCtl_keeps (h : s.Inv) (hp : s.phase = .ldCtl) : Keeps (phaseLdCtl s) := by
  obtain ⟨⟨n, hn, -⟩, -⟩ := (State.workOk_chunk (.inl hp)).mp h.work
  refine .need hn (.memWrite h (by simp [hp]) fun u hu => ?_)
  have hpu := hu.phase.trans hp
  exact .next (hu.inv.enterSession (by rw [hpu]; rfl) rfl ((State.workOk_chunk (.inr rfl)).mpr
    ((State.workOk_chunk (.inl hpu)).mp hu.inv.work)))

theorem phaseLdData_keeps (h : s.Inv) (hc : s.cfg.wf = true) (hp : s.phase = .ldData) : Keeps (phaseLdData s) := by
  obtain ⟨⟨n, hn, hmod, hlt⟩, hcnt⟩ := (State.workOk_chunk (.inr hp)).mp h.work
  refine .need hn (.memWrite h (by simp [hp]) fun u hu => ?_)
  obtain ⟨rd, hwork⟩ := hu.work
  have hcu : u.cfg.wf = true := hu.cfg ▸ hc
  have hcntu : u.work.pcCnt = some 0 := by rw [hwork]; exact hcnt
  have hltu : n < imageLen u := by rw [imageLen, hu.operands]; exact hlt
  exact .next (hu.inv.enterSession (by rw [hu.phase, hp]; rfl) rfl ((State.workOk_ldPollf rfl).mpr
    ⟨⟨n + 4, rfl, by omega, Nat.add_lt_add_right hltu 4⟩, State.pollCounted_zero hcu hcntu⟩))

theorem phaseLdPolld_keeps (h : s.Inv) (hp : s.phase = .ldPolld) : Keeps (phaseLdPolld s) := by
  refine .memRead h (by simp [hp]) fun v u hu => ?_
  have hpu := hu.phase.trans hp
  split
  next =>
    have hres : sessionOutcome u.cfg v = .success ∨ sessionOutcome u.cfg v = .bitstreamRejected := by
      unfold sessionOutcome; split <;> simp
    exact .next (hu.inv.enterSession (by rw [hpu]; rfl) rfl ((State.workOk_ldExit rfl).mpr
      ⟨_, rfl, hres.imp_right .inl⟩))
  next => exact pollAgain_keeps hu.inv (.inr hpu)

theorem phaseLdExit_keeps (h : s.Inv) (hp : s.phase = .ldExit) : Keeps (phaseLdExit s) := by
  refine .memWrite h (by simp [hp]) fun u hu => ?_
  have hpu := hu.phase.trans hp
  obtain ⟨r, hr, -⟩ := (State.workOk_ldExit hpu).mp hu.inv.work
  exact .need hr (.next (hu.inv.finish (by simp [hpu]) r))

/-! ### ACTIVATE -/

/-- The rest of a phase of ACTIVATE, after its write or after the read-back of it. -/
theorem actRest_keeps {w : ActWrite} (h : s.Inv) (hi : s.current = some .activate) (hw : s.operands.winValid = true)
    (hr : w = .ader → s.relocating) : Keeps (actRest w s) := by
  cases w with
  | rst | dis | wb | vec => exact .next (h.enterActivate hi hw rfl (State.workOk_of_reads_none (by simp)))
  | lvl =>
    exact .next (h.enterActivate hi hw rfl ((State.workOk_acAder rfl).mpr ⟨0, rfl, by decide, rfl⟩))
  | ader =>
    obtain ⟨k, hk, -, htup⟩ := hr rfl
    refine .need hk ?_
    split
    next hlt => exact .next (h.enterActivate hi hw rfl ((State.workOk_acAder rfl).mpr ⟨k + 1, rfl, hlt, htup⟩))
    next => exact .next (h.enterActivate hi hw rfl (State.workOk_of_reads_none (by simp)))
  | en => exact .next (h.finish (phase_ne_of_command hi).2 _)

/-- One write of ACTIVATE, which goes on at once or by the read-back (R200, R208). -/
theorem actWrite_keeps {w : ActWrite} (off : Nat) (b : Byte) (h : s.Inv) (hi : s.current = some .activate)
    (hw : s.operands.winValid = true) (hr : w = .ader → s.relocating) : Keeps (actWrite w off b s) := by
  unfold actWrite csrWrite
  refine .memWrite h (phase_ne_idle_of_current hi) fun u hu => ?_
  have hiu := hu.current.trans hi
  have hwu : u.operands.winValid = true := hu.operands ▸ hw
  have hru : w = .ader → u.relocating := fun e => hu.relocating (hr e)
  split
  next hrb => exact .next (hu.inv.enterActivate hiu hwu rfl ((State.workOk_acRb rfl).mpr ⟨hrb, w, rfl, hru⟩))
  next => exact actRest_keeps hu.inv hiu hwu hru

theorem phaseAcRst_keeps (h : s.Inv) (hp : s.phase = .acRst) : Keeps (phaseAcRst s) :=
  .withWindow h (by simp [hp]) fun hw => actWrite_keeps _ _ h (State.current_of_phase hp) hw nofun

/-- A read-back goes on with the rest of the phase that wrote. -/
theorem phaseAcRb_keeps (h : s.Inv) (hp : s.phase = .acRb) : Keeps (phaseAcRb s) := by
  obtain ⟨-, w, hw, hr⟩ := (State.workOk_acRb hp).mp h.work
  have hread : ∀ off, Keeps (csrRead off (fun _ s => actRest w s) s) := fun off =>
    .memRead h (by simp [hp]) fun v u hu =>
      actRest_keeps hu.inv (State.current_of_phase (hu.phase.trans hp))
        (hu.inv.mapped (by rw [hu.phase, hp]; rfl)) fun e => hu.relocating (hr e)
  refine .need hw ?_
  cases w with
  | ader =>
    obtain ⟨k, hk, -⟩ := hr rfl
    exact .need hk (hread _)
  | rst | dis | wb | vec | lvl | en => exact hread _

theorem phaseAcAder_keeps (h : s.Inv) (hp : s.phase = .acAder) : Keeps (phaseAcAder s) := by
  have hr := (State.workOk_acAder hp).mp h.work
  obtain ⟨k, hk, hlt, htup⟩ := id hr
  refine .need hk (.need htup ?_)
  rw [if_pos hlt]
  exact actWrite_keeps _ _ h (State.current_of_phase hp) (h.mapped (by rw [hp]; rfl)) fun _ => hr

/-- The settle delay: no transaction (R201). -/
theorem phaseAcWait_keeps (h : s.Inv) (hp : s.phase = .acWait) : Keeps (phaseAcWait s) := by
  have hrecord : (s.record (.delay s.cfg.settle)).Inv := h.access (rd := s.work.rd) h.window
  exact .next (hrecord.enterActivate (State.current_of_phase hp)
    (h.mapped (by rw [hp]; rfl)) rfl (State.workOk_of_reads_none (by simp)))

/-! ### The whole machine -/

/-- The sequencer's own step keeps the invariant and reads no unwritten register. -/
theorem advance_keeps (h : s.Inv) (hc : s.cfg.wf = true) : Keeps (advance s) := by
  have hact : ∀ {w off b}, s.current = some .activate → s.phase.needsWindow = true → w ≠ .ader →
      Keeps (actWrite w off b s) := fun hi hp hw => actWrite_keeps _ _ h hi (h.mapped hp) fun e => absurd e hw
  unfold advance State.current
  cases hp : s.phase <;> simp only [Phase.command, exec, execCsrRead, execCsrWrite, execUnlock, execIsActive, execLoad,
    execActivate, hp]
  case idle | fault => exact .next h
  case crRd => exact phaseCrRd_keeps h hp
  case cwWr => exact phaseCwWr_keeps h hp
  case ulChk => exact phaseUlChk_keeps h hp
  case ulTrig => exact phaseUlTrig_keeps h hp
  case iaRd => exact phaseIaRd_keeps h hp
  case ldChk => exact phaseLdChk_keeps h hp
  case ldTrig => exact phaseLdTrig_keeps h hp
  case ldDet => exact phaseLdDet_keeps h hp
  case ldSwrst => exact phaseLdSwrst_keeps h hp
  case ldStart => exact phaseLdStart_keeps h hc hp
  case ldPollf => exact phaseLdPollf_keeps h hc hp
  case ldCtl => exact phaseLdCtl_keeps h hp
  case ldData => exact phaseLdData_keeps h hc hp
  case ldPolld => exact phaseLdPolld_keeps h hp
  case ldExit => exact phaseLdExit_keeps h hp
  case acRst => exact phaseAcRst_keeps h hp
  case acWait => exact phaseAcWait_keeps h hp
  case acAder => exact phaseAcAder_keeps h hp
  case acRb => exact phaseAcRb_keeps h hp
  case acDis | acWb | acVec | acLvl | acEn =>
    exact hact (State.current_of_phase hp) (by rw [hp]; rfl) nofun

theorem HostOnly.inv {t : State} (h : s.Inv) (ht : HostOnly s t) : t.Inv := by
  obtain ⟨port, winMapped, image, inputs, status, rfl, hstatus⟩ := ht
  rcases hstatus with rfl | ⟨-, rfl⟩ | ⟨hp, rfl⟩
  · exact h.hostSide port winMapped image inputs s.status.ovr
  · exact h.hostSide port winMapped image inputs true
  · exact (h.refuse hp).hostSide port winMapped image inputs s.status.ovr

/-- Settles O45: by the four kinds of step. -/
theorem stepKeepsInvariant : Obligations.StepKeepsInvariant := by
  unfold Obligations.StepKeepsInvariant
  intro s t h hstep
  have hc := (wf_of_step_next hstep).1
  have hin : ∀ rest, State.Inv { s with inputs := rest } := fun rest =>
    h.hostSide s.port s.winMapped s.image rest s.status.ovr
  rcases step_cases hstep with ⟨landed, rest, -, rfl⟩ | ⟨rest, ht⟩ | ⟨cw, i, rest, hp, -, -, ht⟩ | hhost
  · exact (hin rest).applyReset hc landed
  · exact (advance_keeps (hin rest) hc).2 t ht
  · rw [exec_of_idle (s := { s with inputs := rest }) hp i] at ht
    cases ht
    exact (hin rest).accept hp i _
  · exact hhost.inv h

/-- An offered word is accepted, refused or dropped, and none of these reads a working register. -/
theorem offerWord_ne_fault (cw : Word) (f : Fault) : offerWord cw s ≠ .fault f := by
  unfold offerWord
  split
  next hp =>
    split
    next i _ => rw [exec_of_idle hp i]; nofun
    next => nofun
  next => nofun

/-- Only the sequencer's own step can be a fault of the model: an acceptance and the host's inputs read no working
register. -/
theorem advance_of_step_fault {f : Fault} (h : step s = .fault f) :
    s.cfg.wf = true ∧ ∃ rest, advance { s with inputs := rest } = .fault f := by
  unfold step at h
  split at h
  · cases h
  next hcfg =>
    refine ⟨Config.firstBroken_eq_none_iff.mp hcfg, ?_⟩
    unfold stepInput at h
    split at h
    · exact ⟨s.inputs, h⟩
    next e rest hi =>
      split at h
      · exact ⟨s.inputs, h⟩
      · cases e with
        | tick => exact ⟨rest, h⟩
        | offer cw => exact absurd h (offerWord_ne_fault cw f)
        | setWindow m => simp only [hostInput, setWindow] at h; split at h <;> cases h
        | setImage b => simp only [hostInput, setImage] at h; split at h <;> cases h
        | write | reset | waitDone | skipUnlessSuccess => cases h

/-- From a state of the invariant no step is a fault of the model. -/
theorem step_ne_fault (h : s.Inv) (f : Fault) : step s ≠ .fault f := by
  intro hstep
  obtain ⟨hc, rest, hadv⟩ := advance_of_step_fault hstep
  exact (advance_keeps (h.hostSide s.port s.winMapped s.image rest s.status.ovr) hc).1 f hadv

/-! ### Reads of unwritten working registers -/

/-- LOAD in the FIFO poll of a chunk still to push: one read of the FIFO status (R168). -/
theorem exec_load_ldPollf {n : Nat} {v : Word} (hc : s.cfg.wf = true) (hv : s.device.peek = Response.ofWord v)
    (hp : s.phase = .ldPollf) (hn : s.work.n = some n) (hlt : n < imageLen s) (hfull : fifoIsFull s.cfg v = true) :
    exec .load s = pollAgain ((s.answered.record (.read (ldrFifoCsr s.cfg) v)).setRd v) := by
  have ha : ldrFifoCsr s.cfg + 4 ≤ s.cfg.winSize :=
    (Config.loader_onWindow hc (o := s.cfg.offFifoCsr) (by simp [Config.loaderOffsets])).2
  simp only [exec, execLoad, hp, phaseLdPollf, hn, need_some, if_neg (Nat.not_le_of_lt hlt)]
  rw [memRead_done ha hv, beWord_beByte]
  exact if_pos hfull

/-- LOAD in the completion poll with `P_CSR_DONE` clear: one read of the loader CSR (R170). -/
theorem exec_load_ldPolld {v : Word} (hc : s.cfg.wf = true) (hv : s.device.peek = Response.ofWord v)
    (hp : s.phase = .ldPolld) (hdone : isDone s.cfg v = false) :
    exec .load s = pollAgain ((s.answered.record (.read (ldrCsr s.cfg) v)).setRd v) := by
  have ha : ldrCsr s.cfg + 4 ≤ s.cfg.winSize :=
    (Config.loader_onWindow hc (o := s.cfg.offCsr) (by simp [Config.loaderOffsets])).2
  simp only [exec, execLoad, hp, phaseLdPolld]
  rw [memRead_done ha hv, beWord_beByte]
  exact if_neg (by simp [hdone])

/-- LOAD in its exit phase: the exit write, then `res` (R172). -/
theorem exec_load_ldExit {v : Word} (hc : s.cfg.wf = true) (hv : s.device.peek = Response.ofWord v)
    (hp : s.phase = .ldExit) :
    exec .load s =
      need .res s.work.res fun res => .next ((s.answered.wrote (ldrCsr s.cfg) (wExit s.cfg)).finish res) := by
  have ha : ldrCsr s.cfg + 4 ≤ s.cfg.winSize :=
    (Config.loader_onWindow hc (o := s.cfg.offCsr) (by simp [Config.loaderOffsets])).2
  simp only [exec, execLoad, hp, phaseLdExit]
  exact memWrite_done ha hv

theorem pollAgain_unwritten (h : s.work.pcCnt = none) : pollAgain s = .fault (.unwritten .pcCnt) := by
  simp [pollAgain, h]

/-- Settles O46: acceptance empties the working registers, each phase's first read of an empty one is the fault, and no
state of the invariant reads one. -/
theorem noUnwrittenRegisterRead : Obligations.NoUnwrittenRegisterRead := by
  unfold Obligations.NoUnwrittenRegisterRead
  refine ⟨fun i s t hp h => ?_, fun s => ⟨?_, ?_, ?_, ?_, ?_, ?_, ?_⟩, fun s v hc hv => ⟨?_, ?_, ?_⟩,
    fun s f h => step_ne_fault h f⟩
  · rw [exec_of_idle hp] at h
    cases h
    rfl
  · intro hp hj; simp [exec, execUnlock, hp, phaseUlTrig, unlockTurn, hj]
  · intro hp hj; simp [exec, execLoad, hp, phaseLdTrig, unlockTurn, hj]
  · intro hp hn
    simp only [List.mem_cons, List.not_mem_nil, or_false] at hp
    rcases hp with hp | hp | hp <;> simp [exec, execLoad, hp, phaseLdPollf, phaseLdCtl, phaseLdData, hn]
  · intro hp hk; simp [exec, execActivate, hp, phaseAcAder, hk]
  · intro hp k hk htup; simp [exec, execActivate, hp, phaseAcAder, hk, htup]
  · intro hp hrb hk; simp [exec, execActivate, hp, phaseAcRb, hrb, hk]
  · intro hp hrb; simp [exec, execActivate, hp, phaseAcRb, hrb]
  · intro hp n hn hlt hfull hcnt
    rw [exec_load_ldPollf hc hv hp hn hlt (by simpa [fifoIsFull, flagSet] using hfull)]
    exact pollAgain_unwritten hcnt
  · intro hp hdone hcnt
    rw [exec_load_ldPolld hc hv hp (by simpa [isDone, flagSet] using hdone)]
    exact pollAgain_unwritten hcnt
  · intro hp hres
    rw [exec_load_ldExit hc hv hp, hres, need_none]

end Sys2Proof.Machine
end

section
/-! PROOFS. The window (O17, O31, O48): the bytes a word leaves on it, the four bytes of a chunk among them, and that
every event lies on it. -/

namespace Sys2Proof.Machine

open Sys2Proof

/-! ### Byte order -/

/-- Byte `i` of a word write is its lane `i` (R62). -/
theorem Memory.read_writeWord_lane (m : Memory) (a : Nat) (v : Word) {i : Nat} (hi : i < 4) :
    (m.writeWord a v).read (a + i) = some (beByte v i) := by
  rw [Memory.read_writeWord, if_pos (by omega), Nat.add_sub_cancel_left]

/-- A word write leaves every byte outside its four. -/
theorem Memory.read_writeWord_outside (m : Memory) {a x : Nat} (v : Word) (hx : x < a ∨ a + 4 ≤ x) :
    (m.writeWord a v).read x = m.read x := by
  rw [Memory.read_writeWord, if_neg (by omega)]

/-- Settles O17: the lanes of a word are its bytes, the highest first. -/
theorem windowIsBigEndian : Obligations.WindowIsBigEndian := by
  unfold Obligations.WindowIsBigEndian
  refine ⟨fun m a x v => ⟨⟨?_, ?_, ?_, ?_⟩, m.read_writeWord_outside v⟩, fun a s b0 b1 b2 b3 k ha hd =>
    ⟨_, _, memRead_done ha hd, beByte_beWord_zero .., beByte_beWord_one .., beByte_beWord_two ..,
      beByte_beWord_three ..⟩⟩
  · exact m.read_writeWord_lane a v (i := 0) (by decide)
  · exact m.read_writeWord_lane a v (i := 1) (by decide)
  · exact m.read_writeWord_lane a v (i := 2) (by decide)
  · exact m.read_writeWord_lane a v (i := 3) (by decide)

/-! ### The payload -/

/-- Lane `i` of a data word is the chunk's byte `i` (R100, R167). -/
theorem beByte_dataWord (image : List Byte) (len n d : Nat) {i : Nat} (hi : i < 4) :
    beByte (dataWord image len n d) i = chunkByte image len (n + i) (d + i) := by
  interval_cases i <;> simp [dataWord]

/-- Below `L`, where the image reaches, a chunk's byte is the image's (R167). -/
theorem chunkByte_of_lt {image : List Byte} {len i d : Nat} {b : Byte} (hi : i < len) (hb : image[i]? = some b) :
    chunkByte image len i d = b := by
  simp [chunkByte, imageByte, hi, hb]

/-- Settles O31: the data word's lanes are the chunk's bytes, in the order of the image. -/
theorem payloadBytesInImageOrder : Obligations.PayloadBytesInImageOrder := by
  unfold Obligations.PayloadBytesInImageOrder
  rintro s n hc hp hn ⟨b0, b1, b2, b3, hd⟩
  have hwin : ldrFifoR1 s.cfg + 4 ≤ s.cfg.winSize :=
    (Config.loader_onWindow hc (o := s.cfg.offFifoR1) (by simp [Config.loaderOffsets])).2
  have hexec : exec .load s = phaseLdData s := by simp only [exec, execLoad, hp]
  refine ⟨_, by rw [hexec, phaseLdData, hn, need_some, memWrite_done hwin hd], fun i b hi hlt hb => ?_, fun x hx => ?_⟩
  · have hlane := s.window.read_writeWord_lane (ldrFifoR1 s.cfg) (dataWord s.image (imageLen s) n s.draws) hi
    rwa [beByte_dataWord _ _ _ _ hi, chunkByte_of_lt (len := imageLen s) hlt hb] at hlane
  · exact s.window.read_writeWord_outside _ hx

/-! ### Every event on the window -/

/-- Settles O48: the event a step adds is the one of `step_cfg_event`. -/
theorem transactionsOnWindow : Obligations.TransactionsOnWindow := by
  unfold Obligations.TransactionsOnWindow
  intro s t e h htrace
  rcases (step_cfg_event h).2 with ⟨hsame, -⟩ | ⟨e', he', hon, -⟩
  · simp [htrace] at hsame
  · obtain ⟨rfl, -⟩ := List.cons.inj (htrace.symm.trans he')
    exact hon

end Sys2Proof.Machine
end

section
/-! PROOFS. What a step does not depend on (O15, O32): bits 1:0 of `ARG_OFF`, and the image past `L`. Both say that a
step commutes with an update of the state, so the phases are gone through once, for both updates together. -/

namespace Sys2Proof.Machine

open Sys2Proof

/-- `s` with `ARG_OFF` and the image replaced: the update of which O15 and O32 are two cases. -/
def State.remap (f : Word → Word) (g : List Byte → List Byte) (s : State) : State :=
  { s with operands := { s.operands with argOff := f s.operands.argOff }, image := g s.image }

section

variable {f : Word → Word} {g : List Byte → List Byte} {s : State}

/-- `r'` is the result `r` with its state remapped. -/
inductive Remapped (f : Word → Word) (g : List Byte → List Byte) : StepResult → StepResult → Prop where
  | next (t : State) : Remapped f g (.next t) (.next (t.remap f g))
  | fault (x : Fault) : Remapped f g (.fault x) (.fault x)

theorem Remapped.eq_next {r : StepResult} {t : State} (h : Remapped f g (.next t) r) : r = .next (t.remap f g) := by
  cases h; rfl

theorem Remapped.need {α : Type} {r : WorkReg} {v : Option α} {k k' : α → StepResult}
    (hk : ∀ x, v = some x → Remapped f g (k x) (k' x)) : Remapped f g (need r v k) (need r v k') := by
  cases v with
  | none => exact .fault _
  | some x => exact hk x rfl

theorem Remapped.ite {p : Prop} [Decidable p] {q r q' r' : StepResult} (hq : Remapped f g q q')
    (hr : Remapped f g r r') : Remapped f g (if p then q else r) (if p then q' else r') := by
  split
  · exact hq
  · exact hr

theorem Remapped.withWindow {opc : BitVec 4} {k k' : State → StepResult} (hk : Remapped f g (k s) (k' (s.remap f g))) :
    Remapped f g (withWindow opc k s) (withWindow opc k' (s.remap f g)) :=
  .ite hk (.next (s.raiseFault _ _))

/-- The same transaction is issued and gets the same answer. -/
theorem Remapped.transact {a : Nat} {k k' : Word → State → StepResult}
    (hk : ∀ v, Remapped f g (k v s.answered) (k' v (s.answered.remap f g))) :
    Remapped f g (transact a k s) (transact a k' (s.remap f g)) := by
  refine .ite (.next (s.raiseFault _ _)) ?_
  change Remapped f g _ (match s.device.peek with | .done .. => _ | .error => _ | .silent => _)
  cases s.device.peek with
  | done b0 b1 b2 b3 => exact hk _
  | error => exact .next ((s.answered.record _).raiseFault _ _)
  | silent => exact .next s

theorem Remapped.memWrite {a : Nat} {v : Word} {k k' : State → StepResult}
    (hk : Remapped f g (k (s.answered.wrote a v)) (k' ((s.answered.wrote a v).remap f g))) :
    Remapped f g (memWrite a v k s) (memWrite a v k' (s.remap f g)) :=
  .transact fun _ => hk

theorem Remapped.memRead {a : Nat} {k k' : Word → State → StepResult}
    (hk : ∀ v, Remapped f g (k v ((s.answered.record (.read a v)).setRd v))
      (k' v (((s.answered.record (.read a v)).setRd v).remap f g))) :
    Remapped f g (memRead a k s) (memRead a k' (s.remap f g)) :=
  .transact hk

/-! ### The phases -/

theorem unlockTurn_remapped {done done' : State → StepResult} (hd : ∀ t, Remapped f g (done t) (done' (t.remap f g))) :
    Remapped f g (unlockTurn done s) (unlockTurn done' (s.remap f g)) :=
  .need fun _ _ => .ite (.memWrite (.ite (.next (State.setJ _ _)) (hd (State.setJ _ _)))) (hd s)

theorem pollAgain_remapped (s : State) : Remapped f g (pollAgain s) (pollAgain (s.remap f g)) :=
  .need fun cnt _ =>
    .ite (.next (((s.setPcCnt (cnt + 1)).setRes .timeout).goto .ldExit)) (.next (s.setPcCnt (cnt + 1)))

theorem actRest_remapped (w : ActWrite) (s : State) : Remapped f g (actRest w s) (actRest w (s.remap f g)) := by
  cases w with
  | ader =>
    exact .need fun k _ => .ite (.next ((s.setK (k + 1)).goto .acAder)) (.next ((s.setK (k + 1)).goto .acEn))
  | rst | dis | wb | vec | lvl | en => exact .next _

theorem actWrite_remapped (w : ActWrite) (off : Nat) (b : Byte) (s : State) :
    Remapped f g (actWrite w off b s) (actWrite w off b (s.remap f g)) := by
  unfold actWrite csrWrite
  refine .memWrite ?_
  exact .ite (.next (State.goto _ (State.setRb _ _))) (actRest_remapped w _)

theorem readBack_remapped (w : ActWrite) (off : Nat) (s : State) :
    Remapped f g (csrRead off (fun _ s => actRest w s) s) (csrRead off (fun _ s => actRest w s) (s.remap f g)) :=
  .memRead fun _ => actRest_remapped w _

theorem phaseAcRb_remapped (s : State) : Remapped f g (phaseAcRb s) (phaseAcRb (s.remap f g)) := by
  refine .need fun w _ => ?_
  cases w with
  | ader => exact .need fun k _ => readBack_remapped _ _ s
  | rst | dis | wb | vec | lvl | en => exact readBack_remapped _ _ s

/-! ### The commands -/

@[simp] theorem State.remap_phase : (s.remap f g).phase = s.phase := rfl

/-- CSR_READ uses the slot of `ARG_OFF` only (R67). -/
theorem execCsrRead_remapped (hp : s.phase ≠ .idle)
    (hslot : slot (f s.operands.argOff).toNat = slot s.operands.argOff.toNat) :
    Remapped f g (execCsrRead s) (execCsrRead (s.remap f g)) := by
  simp only [execCsrRead, State.remap_phase]
  split
  next hidle => exact absurd hidle hp
  next =>
    refine .withWindow ?_
    change Remapped f g (memRead _ _ s) (memRead (slot (f s.operands.argOff).toNat) _ (s.remap f g))
    rw [hslot]
    exact .memRead fun _ => .next (State.finish _ (State.setRdata _ _))
  next => exact .next s.drop

/-- So does CSR_WRITE. -/
theorem execCsrWrite_remapped (b : Byte) (hp : s.phase ≠ .idle)
    (hslot : slot (f s.operands.argOff).toNat = slot s.operands.argOff.toNat) :
    Remapped f g (execCsrWrite b s) (execCsrWrite b (s.remap f g)) := by
  simp only [execCsrWrite, State.remap_phase]
  split
  next hidle => exact absurd hidle hp
  next =>
    refine .withWindow ?_
    change Remapped f g (memWrite _ _ _ s) (memWrite (slot (f s.operands.argOff).toNat) _ _ (s.remap f g))
    rw [hslot]
    exact .memWrite (.next (State.finish _ _))
  next => exact .next s.drop

theorem execUnlock_remapped (s : State) : Remapped f g (execUnlock s) (execUnlock (s.remap f g)) := by
  simp only [execUnlock, State.remap_phase]
  split
  next => exact .next (s.accept .unlock .ulChk s.operands)
  next => exact .ite (.next ((s.setJ 0).goto .ulTrig)) (.next (s.finish .unlockFailed))
  next => exact unlockTurn_remapped fun t => .next (t.finish .success)
  next => exact .next s.drop

theorem execIsActive_remapped (s : State) : Remapped f g (execIsActive s) (execIsActive (s.remap f g)) := by
  simp only [execIsActive, State.remap_phase]
  split
  next => exact .next (s.accept .isActive .iaRd s.operands)
  next => exact .withWindow (.memRead fun _ => .next (State.finish _ (State.setActive _ _)))
  next => exact .next s.drop

/-- LOAD uses of the image the chunk it writes only (R78, R167). -/
theorem execLoad_remapped
    (hdata : ∀ n, dataWord (g s.image) (imageLen s) n s.draws = dataWord s.image (imageLen s) n s.draws) :
    Remapped f g (execLoad s) (execLoad (s.remap f g)) := by
  simp only [execLoad, State.remap_phase]
  split
  next =>
    exact .next (s.accept .load .ldChk { s.operands with imgValid := s.port.imgValid, imgLen := s.port.imgLen })
  next =>
    exact .ite (.next (s.finish .bitstreamRejected))
      (.ite (.next ((s.setJ 0).goto .ldTrig)) (.next (s.finish .bitstreamRejected)))
  next => exact unlockTurn_remapped fun t => .next (t.goto .ldDet)
  next =>
    unfold phaseLdDet readActive
    refine .memRead fun _ => ?_
    exact .ite (.next (State.goto _ (State.setActive _ _))) (.next (State.finish _ (State.setActive _ _)))
  next => exact .memWrite (.next (State.goto _ _))
  next => exact .memWrite (.next (State.goto _ (State.setPcCnt _ (State.setN _ _))))
  next =>
    exact .need fun n _ => .ite (.next (State.goto .ldPolld (State.setPcCnt 0 s)))
      (.memRead fun _ => .ite (pollAgain_remapped _) (.next (State.goto _ (State.setPcCnt _ _))))
  next => exact .need fun n _ => .memWrite (.next (State.goto _ _))
  next =>
    refine .need fun n _ => ?_
    change Remapped f g (memWrite _ _ _ s)
      (memWrite (ldrFifoR1 s.cfg) (dataWord (g s.image) (imageLen s) n s.draws) _ (s.remap f g))
    rw [hdata]
    exact .memWrite (.next (State.goto _ (State.setN _ (State.drawn _ _))))
  next => exact .memRead fun _ => .ite (.next (State.goto _ (State.setRes _ _))) (pollAgain_remapped _)
  next => exact .memWrite (.need fun res _ => .next (State.finish res _))
  next => exact .next s.drop

theorem execActivate_remapped (s : State) : Remapped f g (execActivate s) (execActivate (s.remap f g)) := by
  simp only [execActivate, State.remap_phase]
  split
  next =>
    exact .next (s.accept .activate .acRst
      { s.operands with cfgAddr := s.port.cfgAddr, cfgVec := s.port.cfgVec, cfgLvl := s.port.cfgLvl })
  next => exact .withWindow (actWrite_remapped _ _ _ s)
  next => exact .next ((s.record (.delay s.cfg.settle)).goto .acDis)
  next => exact actWrite_remapped _ _ _ s
  next => exact actWrite_remapped _ _ _ s
  next => exact actWrite_remapped _ _ _ s
  next => exact actWrite_remapped _ _ _ s
  next => exact .need fun k _ => .need fun tup _ => .ite (actWrite_remapped _ _ _ s) (.next (s.goto .acEn))
  next => exact actWrite_remapped _ _ _ s
  next => exact phaseAcRb_remapped s
  next => exact .next s.drop

/-- Outside `IDLE` a command reads of `ARG_OFF` its slot only, and of the image the chunk of `LD_DATA` only. -/
theorem exec_remapped (i : Instr) (hp : s.phase ≠ .idle)
    (hslot : slot (f s.operands.argOff).toNat = slot s.operands.argOff.toNat)
    (hdata : ∀ n, dataWord (g s.image) (imageLen s) n s.draws = dataWord s.image (imageLen s) n s.draws) :
    Remapped f g (exec i s) (exec i (s.remap f g)) := by
  cases i with
  | csrRead => exact execCsrRead_remapped hp hslot
  | csrWrite b => exact execCsrWrite_remapped b hp hslot
  | unlock => exact execUnlock_remapped s
  | isActive => exact execIsActive_remapped s
  | load => exact execLoad_remapped hdata
  | activate => exact execActivate_remapped s

end

/-! ### The slot -/

/-- Clearing bits 1:0 of an offset is rounding it down to a multiple of 4 (R13). -/
theorem slot_toNat_eq_and (off : Word) : slot off.toNat = (off &&& ~~~ 3#32).toNat := by
  have hshift : off &&& ~~~ 3#32 = off >>> 2 <<< 2 := by
    ext i hi
    interval_cases i <;> simp
  have := off.isLt
  rw [hshift, BitVec.toNat_shiftLeft, BitVec.toNat_ushiftRight, Nat.shiftLeft_eq, Nat.shiftRight_eq_div_pow, slot]
  omega

/-- Settles O15: `exec_remapped` with another offset of the same slot and the same image. -/
theorem slotIgnoresLowBits : Obligations.SlotIgnoresLowBits := by
  unfold Obligations.SlotIgnoresLowBits
  refine ⟨slot_toNat_eq_and, fun i s off hp hoff t ht => ?_⟩
  have hslot : slot off.toNat = slot s.operands.argOff.toNat := by
    rw [slot_toNat_eq_and, hoff, ← slot_toNat_eq_and]
  have hr := exec_remapped (f := fun _ => off) (g := id) i hp hslot fun _ => rfl
  rw [ht] at hr
  exact hr.eq_next

/-! ### The image -/

/-- A data word reads the image below `L` only (R167). -/
theorem dataWord_congr {image image' : List Byte} {len : Nat} (h : ∀ k, k < len → image'[k]? = image[k]?) (n d : Nat) :
    dataWord image' len n d = dataWord image len n d := by
  have hbyte : ∀ i d, chunkByte image' len i d = chunkByte image len i d := by
    intro i d
    unfold chunkByte imageByte
    split
    · rw [h i ‹_›]
    · rfl
  simp only [dataWord, hbyte]

/-- Settles O32: `exec_remapped` with the same offset and an image that agrees below `L`. -/
theorem imageReadBelowLength : Obligations.ImageReadBelowLength := by
  unfold Obligations.ImageReadBelowLength
  intro s t img hp himg ht
  have hr := exec_remapped (f := id) (g := fun _ => img) .load hp rfl fun n => dataWord_congr himg n s.draws
  rw [ht] at hr
  exact hr.eq_next

end Sys2Proof.Machine
end

section
/-! PROOFS. The window bound (O49): where the access of the phase lies in the window, no step raises `OUT_OF_WINDOW`,
and only the offset of CSR_READ and CSR_WRITE can lie outside it. -/

namespace Sys2Proof.Machine

open Sys2Proof

/-- A result whose next state, if it is one, records no `OUT_OF_WINDOW` (R69). -/
def InBounds (r : StepResult) : Prop := ∀ t, r = .next t → t.faultInfo.cause ≠ .outOfWindow

variable {s : State}

theorem InBounds.next {t : State} (h : t.faultInfo.cause ≠ .outOfWindow) : InBounds (.next t) :=
  fun _ e => by cases e; exact h

theorem InBounds.fault (f : Fault) : InBounds (.fault f) := fun _ e => by cases e

theorem InBounds.need {α : Type} {r : WorkReg} {v : Option α} {k : α → StepResult}
    (hk : ∀ x, v = some x → InBounds (k x)) : InBounds (need r v k) :=
  need_elim (P := InBounds) (fun _ => .fault _) hk

theorem InBounds.withWindow {opc : BitVec 4} {k : State → StepResult} (hk : InBounds (k s)) :
    InBounds (withWindow opc k s) :=
  withWindow_elim (P := InBounds) (fun _ => .next (by simp)) fun _ => hk

/-- A transaction in the window is in bounds if what follows it is. -/
theorem InBounds.transact {a : Nat} {k : Word → State → StepResult} (h : s.faultInfo.cause ≠ .outOfWindow)
    (ha : a + 4 ≤ s.cfg.winSize) (hk : ∀ v, InBounds (k v s.answered)) : InBounds (transact a k s) :=
  transact_elim (P := InBounds) (fun hout => absurd hout (by omega)) (fun _ _ => .next (by simp)) (fun _ _ => .next h)
    fun _ _ _ _ _ _ => hk _

theorem InBounds.memWrite {a : Nat} {v : Word} {k : State → StepResult} (h : s.faultInfo.cause ≠ .outOfWindow)
    (ha : a + 4 ≤ s.cfg.winSize) (hk : InBounds (k (s.answered.wrote a v))) : InBounds (memWrite a v k s) :=
  .transact h ha fun _ => hk

theorem InBounds.memRead {a : Nat} {k : Word → State → StepResult} (h : s.faultInfo.cause ≠ .outOfWindow)
    (ha : a + 4 ≤ s.cfg.winSize) (hk : ∀ v, InBounds (k v ((s.answered.record (.read a v)).setRd v))) :
    InBounds (memRead a k s) :=
  .transact h ha hk

theorem InBounds.ite {p : Prop} [Decidable p] {q r : StepResult} (hq : InBounds q) (hr : InBounds r) :
    InBounds (if p then q else r) := by
  split
  · exact hq
  · exact hr

/-! ### The steps of the commands -/

theorem unlockTurn_inBounds (h : s.faultInfo.cause ≠ .outOfWindow) (ha : ldrBtrigr s.cfg + 4 ≤ s.cfg.winSize)
    {done : State → StepResult} (hd : ∀ t : State, t.faultInfo = s.faultInfo → InBounds (done t)) :
    InBounds (unlockTurn done s) :=
  .need fun _ _ => .ite (.memWrite h ha (.ite (.next h) (hd _ rfl))) (hd _ rfl)

theorem pollAgain_inBounds (h : s.faultInfo.cause ≠ .outOfWindow) : InBounds (pollAgain s) :=
  .need fun _ _ => .ite (.next h) (.next h)

theorem actRest_inBounds (w : ActWrite) (h : s.faultInfo.cause ≠ .outOfWindow) : InBounds (actRest w s) := by
  cases w with
  | ader => exact .need fun _ _ => .ite (.next h) (.next h)
  | rst | dis | wb | vec | lvl | en => exact .next h

theorem actWrite_inBounds (w : ActWrite) {off : Nat} (b : Byte) (h : s.faultInfo.cause ≠ .outOfWindow)
    (ha : slot off + 4 ≤ s.cfg.winSize) : InBounds (actWrite w off b s) := by
  unfold actWrite csrWrite
  refine .memWrite h ha ?_
  exact .ite (.next h) (actRest_inBounds w h)

theorem readBack_inBounds (w : ActWrite) {off : Nat} (h : s.faultInfo.cause ≠ .outOfWindow)
    (ha : slot off + 4 ≤ s.cfg.winSize) : InBounds (csrRead off (fun _ s => actRest w s) s) :=
  .memRead h ha fun _ => actRest_inBounds w h

/-- Every slot ACTIVATE writes lies in the window, the relocation bytes included (R9(5)). -/
theorem actOff_inWindow {c : Config} (hc : c.wf = true) {k : Nat} (hk : k < 4) (w : ActWrite) :
    slot (actOff c k w) + 4 ≤ c.winSize := by
  apply Config.csr_inWindow hc
  cases w
  case ader => interval_cases k <;> simp [actOff, Config.csrOffsets]
  all_goals simp [actOff, Config.csrOffsets]

/-- From a state of the invariant whose CSR offset lies in the window where one is accessed, the sequencer's own step
raises no `OUT_OF_WINDOW`. -/
theorem advance_inBounds (hi : s.Inv) (hc : s.cfg.wf = true) (h : s.faultInfo.cause ≠ .outOfWindow)
    (hoff : s.phase = .crRd ∨ s.phase = .cwWr → slot s.operands.argOff.toNat + 4 ≤ s.cfg.winSize) :
    InBounds (advance s) := by
  have hldr : ∀ {o}, o ∈ s.cfg.loaderOffsets → s.cfg.ldrBase + o + 4 ≤ s.cfg.winSize :=
    fun ho => (Config.loader_onWindow hc ho).2
  have hbtrigr : ldrBtrigr s.cfg + 4 ≤ s.cfg.winSize := hldr (by simp [Config.loaderOffsets])
  have hidr : ldrIdr s.cfg + 4 ≤ s.cfg.winSize := hldr (by simp [Config.loaderOffsets])
  have hcsr : ldrCsr s.cfg + 4 ≤ s.cfg.winSize := hldr (by simp [Config.loaderOffsets])
  have hfifoCsr : ldrFifoCsr s.cfg + 4 ≤ s.cfg.winSize := hldr (by simp [Config.loaderOffsets])
  have hfifoR0 : ldrFifoR0 s.cfg + 4 ≤ s.cfg.winSize := hldr (by simp [Config.loaderOffsets])
  have hfifoR1 : ldrFifoR1 s.cfg + 4 ≤ s.cfg.winSize := hldr (by simp [Config.loaderOffsets])
  have hact : ∀ w, slot (actOff s.cfg 0 w) + 4 ≤ s.cfg.winSize := actOff_inWindow hc (by decide)
  unfold advance State.current
  cases hp : s.phase <;> simp only [Phase.command, exec, execCsrRead, execCsrWrite, execUnlock, execIsActive, execLoad,
    execActivate, hp]
  case idle | fault => exact .next h
  case crRd => exact .withWindow (.memRead h (hoff (.inl hp)) fun _ => .next h)
  case cwWr => exact .withWindow (.memWrite h (hoff (.inr hp)) (.next h))
  case ulChk => exact .ite (.next h) (.next h)
  case ulTrig => exact unlockTurn_inBounds h hbtrigr fun t ht => .next (ht ▸ h)
  case iaRd => exact .withWindow (.memRead h hidr fun _ => .next h)
  case ldChk => exact .ite (.next h) (.ite (.next h) (.next h))
  case ldTrig => exact unlockTurn_inBounds h hbtrigr fun t ht => .next (ht ▸ h)
  case ldDet =>
    unfold phaseLdDet readActive
    refine .memRead h hidr fun _ => ?_
    exact .ite (.next h) (.next h)
  case ldSwrst | ldStart => exact .memWrite h hcsr (.next h)
  case ldPollf =>
    exact .need fun _ _ => .ite (.next h) (.memRead h hfifoCsr fun _ => .ite (pollAgain_inBounds h) (.next h))
  case ldCtl => exact .need fun _ _ => .memWrite h hfifoR0 (.next h)
  case ldData => exact .need fun _ _ => .memWrite h hfifoR1 (.next h)
  case ldPolld => exact .memRead h hcsr fun _ => .ite (.next h) (pollAgain_inBounds h)
  case ldExit => exact .memWrite h hcsr (.need fun _ _ => .next h)
  case acRst => exact .withWindow (actWrite_inBounds .rst _ h (hact .rst))
  case acWait => exact .next h
  case acDis => exact actWrite_inBounds .dis _ h (hact .dis)
  case acWb => exact actWrite_inBounds .wb _ h (hact .wb)
  case acVec => exact actWrite_inBounds .vec _ h (hact .vec)
  case acLvl => exact actWrite_inBounds .lvl _ h (hact .lvl)
  case acAder =>
    refine .need fun k _ => .need fun tup _ => ?_
    split
    · exact actWrite_inBounds .ader _ h (actOff_inWindow hc ‹k < 4› .ader)
    · exact .next h
  case acEn => exact actWrite_inBounds .en _ h (hact .en)
  case acRb =>
    obtain ⟨-, w, hw, hader⟩ := (State.workOk_acRb hp).mp hi.work
    rw [phaseAcRb, hw, need_some]
    cases w
    case ader =>
      obtain ⟨k, hk, hlt, -⟩ := hader rfl
      exact .need fun k' hk' => readBack_inBounds .ader h
        (actOff_inWindow hc (by rw [hk] at hk'; cases hk'; exact hlt) .ader)
    all_goals exact readBack_inBounds _ h (hact _)

/-- Behind the window check, an access outside the window records nothing, with the window mapped or not (R69, R237). -/
theorem withWindow_outside_trace {opc : BitVec 4} {a : Nat} {k : State → StepResult} {k' : Word → State → StepResult}
    {t : State} (h : withWindow opc k s = .next t) (hk : k s = transact a k' s) (ha : s.cfg.winSize < a + 4) :
    t.trace = s.trace := by
  unfold withWindow at h
  rw [hk, transact_outside ha] at h
  split at h <;> cases h <;> rfl

/-- CSR_READ and CSR_WRITE outside the window record nothing (R69). -/
theorem advance_outside_trace {t : State} (hp : s.phase = .crRd ∨ s.phase = .cwWr)
    (ha : s.cfg.winSize < slot s.operands.argOff.toNat + 4) (h : advance s = .next t) : t.trace = s.trace := by
  rcases hp with hp | hp
  · rw [advance_of_current (State.current_of_phase hp), exec, execCsrRead, hp] at h
    change phaseCrRd s = _ at h
    unfold phaseCrRd csrRead memRead at h
    exact withWindow_outside_trace h rfl ha
  · rw [advance_of_current (State.current_of_phase hp), exec, execCsrWrite, hp] at h
    change phaseCwWr s = _ at h
    unfold phaseCwWr csrWrite memWrite at h
    exact withWindow_outside_trace h rfl ha

/-- Where the sequencer's own step raises `OUT_OF_WINDOW` (R69). -/
theorem advance_outOfWindow {t : State} (hi : s.Inv) (hc : s.cfg.wf = true) (hs : s.faultInfo.cause ≠ .outOfWindow)
    (h : advance s = .next t) (ht : t.faultInfo.cause = .outOfWindow) :
    (s.phase = .crRd ∨ s.phase = .cwWr) ∧ s.cfg.winSize < slot s.operands.argOff.toNat + 4 ∧ t.trace = s.trace := by
  have hout : (s.phase = .crRd ∨ s.phase = .cwWr) ∧ s.cfg.winSize < slot s.operands.argOff.toNat + 4 := by
    by_contra hn
    exact advance_inBounds hi hc hs (fun hp => not_lt.mp fun hlt => hn ⟨hp, hlt⟩) t h ht
  exact ⟨hout.1, hout.2, advance_outside_trace hout.1 hout.2 h⟩

/-- Settles O49: by the kind of step. A reset clears the cause, an acceptance and a step of the host leave it, and
`advance_outOfWindow` says where the sequencer's own step raises it. -/
theorem onlyCsrAccessLeavesWindow : Obligations.OnlyCsrAccessLeavesWindow := by
  unfold Obligations.OnlyCsrAccessLeavesWindow
  intro s t hi h hs ht
  have hc := (wf_of_step_next h).1
  rcases step_cases h with ⟨landed, rest, -, rfl⟩ | ⟨rest, ha⟩ | ⟨cw, i, rest, hp, -, -, ha⟩ | hhost
  · obtain ⟨-, -, hinfo, -⟩ := applyReset_registers landed { s with inputs := rest }
    simp [hinfo, FaultInfo.reset] at ht
  · exact advance_outOfWindow (s := { s with inputs := rest })
      (hi.hostSide s.port s.winMapped s.image rest s.status.ovr) hc hs ha ht
  · rw [exec_of_idle (s := { s with inputs := rest }) hp] at ha
    cases ha
    exact absurd ht hs
  · obtain ⟨_, _, _, _, _, rfl, -⟩ := hhost
    exact absurd ht hs

end Sys2Proof.Machine
end

section
/-! PROOFS. Encodings and what they do (O1, O2, O3, O4, O5, O7, O19, O27, O39, O60): the command word and its fields,
the offer of a valid and of an invalid word, the status word, and the words and bytes put on the bus. -/

namespace Sys2Proof

/-! ### Bits of a word -/

/-- A field put at bit `k` is read back from there. -/
theorem extractLsb'_field_same {w : Nat} (x : BitVec w) {k : Nat} (h : k + w ≤ 32) :
    (x.setWidth 32 <<< k).extractLsb' k w = x := by
  ext i hi
  simp [show k + i < 32 by omega, BitVec.getLsbD_eq_getElem hi]

/-- Bits outside a field put at bit `k` are 0. -/
theorem extractLsb'_field_disjoint {w : Nat} (x : BitVec w) {k i n : Nat} (h : k + w ≤ i ∨ i + n ≤ k) :
    (x.setWidth 32 <<< k).extractLsb' i n = 0#n := by
  ext j hj
  rcases h with habove | hbelow
  · simp [BitVec.getLsbD_of_ge x (i + j - k) (by omega)]
  · simp [show i + j < k by omega]

/-- Bits of a value shifted right are its bits further up. -/
theorem extractLsb'_ushiftRight {w : Nat} (x : BitVec w) (k i n : Nat) :
    (x >>> k).extractLsb' i n = x.extractLsb' (k + i) n := by
  ext j hj
  simp [Nat.add_assoc]

/-- Bits 1:0 of a word are those the mask 3 keeps. -/
theorem extractLsb'_and_three (v : Word) : (v &&& 3#32).extractLsb' 0 2 = v.extractLsb' 0 2 := by
  rw [BitVec.extractLsb'_and, show (3#32).extractLsb' 0 2 = BitVec.allOnes 2 from rfl, BitVec.and_allOnes]

/-- A value inside a mask has no bit outside it. -/
theorem and_not_eq_zero_of_and_eq {w : Nat} {v m : BitVec w} (h : v &&& m = v) : v &&& ~~~m = 0#w := by
  rw [← h, BitVec.and_assoc, BitVec.and_not_self]
  exact BitVec.and_zero

/-! ### The command word -/

/-- A command without a byte of its own is read exactly where bits 11:4 are 0 (R91, R93). -/
theorem plainCommand_eq_ok_iff {cw : Word} {i j : Instr} :
    plainCommand cw i = .ok j ↔ byteField cw = 0#8 ∧ i = j := by
  unfold plainCommand
  split <;> simp [*]

/-- The decoder accepts a word for exactly the command whose fields it has (R91 to R93). -/
theorem decode_eq_ok_iff_fields {cw : Word} {i : Instr} :
    decode cw = .ok i ↔ reservedField cw = 0#20 ∧ opcField cw = i.opcode ∧ byteField cw = i.byte := by
  constructor
  · intro h
    unfold decode at h
    split at h
    next hr =>
      refine ⟨hr, ?_⟩
      split at h
      case h_2 ho => -- CSR_WRITE
        cases h
        exact ⟨BitVec.eq_of_toNat_eq ho, rfl⟩
      case h_7 => cases h -- reserved opcodes
      all_goals
        obtain ⟨hb, rfl⟩ := plainCommand_eq_ok_iff.mp h
        exact ⟨BitVec.eq_of_toNat_eq ‹_›, hb⟩
    next => cases h
  · rintro ⟨hr, ho, hb⟩
    cases i <;> simp [decode, plainCommand, hr, ho, hb, Instr.opcode, Instr.byte]

/-- A word is its three fields, one after the other (R91). -/
theorem append_fields (cw : Word) : reservedField cw ++ byteField cw ++ opcField cw = cw :=
  calc reservedField cw ++ byteField cw ++ opcField cw
    _ = cw.extractLsb' 4 28 ++ cw.extractLsb' 0 4 :=
      congrArg (· ++ opcField cw) (BitVec.extractLsb'_append_extractLsb'_eq_extractLsb' rfl)
    _ = cw.extractLsb' 0 32 := BitVec.extractLsb'_append_extractLsb'_eq_extractLsb' rfl
    _ = cw := BitVec.extractLsb'_eq_self

/-- The encoding of every command has the command's fields (R91, R92). -/
theorem encode_fields (i : Instr) : Laws.CommandWord.Statement i := by
  cases i with
  | csrRead => exact Laws.CommandWord.csrRead
  | csrWrite b => exact Laws.CommandWord.csrWrite b
  | unlock => exact Laws.CommandWord.unlock
  | isActive => exact Laws.CommandWord.isActive
  | load => exact Laws.CommandWord.load
  | activate => exact Laws.CommandWord.activate

/-- Settles O2: a word decodes to a command when it has the command's fields, and words with equal fields are equal. -/
theorem decodeExactlyTheEncoding : Obligations.DecodeExactlyTheEncoding := by
  unfold Obligations.DecodeExactlyTheEncoding
  intro cw i
  obtain ⟨hr, ho, hb⟩ := encode_fields i
  rw [decode_eq_ok_iff_fields]
  constructor
  · rintro ⟨hr', ho', hb'⟩
    rw [← append_fields cw, ← append_fields (encode i), hr, ho, hb, hr', ho', hb']
  · rintro rfl
    exact ⟨hr, ho, hb⟩

/-- Settles O1: each word evaluated. -/
theorem commandWordExamples : Obligations.CommandWordExamples :=
  ⟨rfl, rfl, rfl, rfl, rfl, rfl, rfl, rfl, rfl, rfl, rfl, rfl, rfl⟩

/-- Each of the opcodes 1 to 6 is that of a command with byte 0 (R92). -/
theorem exists_instr_of_opcode {o : BitVec 4} (h1 : 1 ≤ o.toNat) (h6 : o.toNat ≤ 6) :
    ∃ i ∈ [Instr.csrRead, .csrWrite 0#8, .unlock, .isActive, .load, .activate], o = i.opcode ∧ 0#8 = i.byte := by
  revert o
  decide

/-- The opcodes of R92 are 1 to 6, and only opcode 2 leaves the byte open. -/
theorem exists_opcode_byte_iff (o : BitVec 4) (b : Byte) :
    (∃ i : Instr, o = i.opcode ∧ b = i.byte) ↔ 1 ≤ o.toNat ∧ o.toNat ≤ 6 ∧ (b = 0#8 ∨ o = 2#4) := by
  constructor
  · rintro ⟨i, rfl, rfl⟩
    cases i <;> simp [Instr.opcode, Instr.byte]
  · rintro ⟨h1, h6, rfl | rfl⟩
    · obtain ⟨i, -, hi⟩ := exists_instr_of_opcode h1 h6
      exact ⟨i, hi⟩
    · exact ⟨.csrWrite b, rfl, rfl⟩

/-- Which words are valid (R93). -/
theorem exists_decode_eq_ok_iff (cw : Word) :
    (∃ i, decode cw = .ok i) ↔ 1 ≤ (opcField cw).toNat ∧ (opcField cw).toNat ≤ 6 ∧ reservedField cw = 0#20 ∧
      (byteField cw = 0#8 ∨ opcField cw = 2#4) := by
  simp only [decode_eq_ok_iff_fields, exists_and_left, exists_opcode_byte_iff]
  exact and_left_comm.trans (and_congr_right fun _ => and_left_comm)

/-! ### Configurations -/

/-- The last flag lies outside the size field (R9(4)). -/
theorem Config.xlast_and_three {c : Config} (h : c.wf = true) : c.xlast &&& 3#32 = 0#32 :=
  eq_of_beq (Config.wf_holds h .xlastAboveSize)

end Sys2Proof

namespace Sys2Proof.Machine

open Sys2Proof

variable {s : State}

/-! ### Offers in IDLE, and the skip of `configure` -/

/-- Settles O7: the offer is a step of the decoded command, which in `IDLE` is its acceptance. -/
theorem acceptanceLatchesOperands : Obligations.AcceptanceLatchesOperands := by
  unfold Obligations.AcceptanceLatchesOperands
  intro s cw i rest hc hp hi hd
  obtain ⟨hoffer, -, -⟩ := stepRunsTheCommand
  rw [hoffer s cw i rest hc hp hi hd, exec_of_idle (s := { s with inputs := rest }) hp]
  cases i <;> rfl

/-- An invalid word offered in `IDLE` is refused (R93). -/
theorem offerWord_of_not_decode {cw : Word} (hp : s.phase = .idle) (hd : ¬ ∃ i, decode cw = .ok i) :
    offerWord cw s = .next s.refuse := by
  unfold offerWord
  rw [if_pos hp]
  split
  · exact absurd ⟨_, ‹_›⟩ hd
  · rfl

/-- Settles O3: the valid words by their fields, and the refusal of any other word. -/
theorem invalidWordRefused : Obligations.InvalidWordRefused := by
  unfold Obligations.InvalidWordRefused
  refine ⟨exists_decode_eq_ok_iff, fun s cw rest hc hp hi hd => ?_⟩
  rw [step_of_wf hc, stepInput_offer hi]
  exact offerWord_of_not_decode (s := { s with inputs := rest }) hp hd

/-- The host goes on after `Success`, and otherwise leaves out its next `count` inputs (R106). -/
theorem stepInput_skipUnlessSuccess {count : Nat} {rest : List HostInput}
    (h : s.inputs = .skipUnlessSuccess count :: rest) :
    stepInput s = .next { s with inputs := if s.status.outcome = .success then rest else rest.drop count } := by
  by_cases hs : s.status.outcome = .success <;> simp [stepInput, h, hostInput, hs]

/-- Settles O60: the skip of two inputs, taken or not. -/
theorem configureActivatesAfterSuccessOnly : Obligations.ConfigureActivatesAfterSuccessOnly := by
  unfold Obligations.ConfigureActivatesAfterSuccessOnly
  refine fun s rest hc => ⟨rfl, fun hi => ?_⟩
  rw [step_of_wf hc, stepInput_skipUnlessSuccess hi]
  exact ⟨fun hs => by rw [if_pos hs], fun hs => by rw [if_neg hs]; rfl⟩

/-! ### The status word and its codes -/

/-- Settles O4: each part of the word is one of its fields, and every other field is 0 there. -/
theorem statusWordLayout : Obligations.StatusWordLayout := by
  unfold Obligations.StatusWordLayout
  intro st
  have hbusy : (BitVec.ofBool st.busy).setWidth 32 = (BitVec.ofBool st.busy).setWidth 32 <<< 0 :=
    (BitVec.shiftLeft_zero _).symm
  rw [Status.word, hbusy]
  simp (disch := omega) only [BitVec.extractLsb'_or, extractLsb'_field_same, extractLsb'_field_disjoint,
    BitVec.or_zero, BitVec.zero_or, BitVec.or_self, and_self]

/-- Settles O5: the tables, and no outcome has code 7. -/
theorem outcomeAndCauseCodes : Obligations.OutcomeAndCauseCodes := by
  unfold Obligations.OutcomeAndCauseCodes
  refine ⟨rfl, rfl, rfl, rfl, rfl, rfl, rfl, fun o => ?_, rfl, rfl, rfl, rfl⟩
  cases o <;> decide

/-! ### Words and bytes put on the bus -/

/-- Settles O19: the eight words evaluated. -/
theorem unlockWords : Obligations.UnlockWords :=
  ⟨rfl, rfl⟩

/-- The size of a chunk fits bits 1:0 (R99). -/
theorem chunkSize_and_three {len : Nat} (h1 : 1 ≤ len) (h4 : len ≤ 4) :
    BitVec.ofNat 32 (len - 1) &&& 3#32 = BitVec.ofNat 32 (len - 1) := by
  interval_cases len <;> rfl

/-- Settles O27: the size lies inside the mask 3, the last flag inside `P_XLAST`, and the two masks are disjoint. -/
theorem controlWordLayout : Obligations.ControlWordLayout := by
  unfold Obligations.ControlWordLayout
  intro c len lf hc h1 h4
  have hmasks := Config.xlast_and_three hc
  have hsize := chunkSize_and_three h1 h4
  have hsizeLast : BitVec.ofNat 32 (len - 1) &&& c.xlast = 0#32 := by
    rw [← hsize, BitVec.and_assoc, BitVec.and_comm 3#32, hmasks, BitVec.and_zero]
  have hflag : (if lf then c.xlast else 0#32) &&& c.xlast = if lf then c.xlast else 0#32 := by cases lf <;> simp
  have hflagSize : (if lf then c.xlast else 0#32) &&& 3#32 = 0#32 := by cases lf <;> simp [hmasks]
  have hinside : ctrlWord c len lf &&& (3#32 ||| c.xlast) = ctrlWord c len lf := by
    simp only [ctrlWord, BitVec.and_or_distrib_left, BitVec.and_or_distrib_right, hsize, hsizeLast, hflag, hflagSize,
      BitVec.or_zero, BitVec.zero_or]
  refine ⟨?_, ?_, and_not_eq_zero_of_and_eq hinside, rfl⟩
  · rw [← extractLsb'_and_three, ctrlWord, BitVec.and_or_distrib_right, hsize, hflagSize, BitVec.or_zero]
    interval_cases len <;> rfl
  · rw [ctrlWord, BitVec.and_or_distrib_right, hsizeLast, hflag, BitVec.zero_or]

/-- The relocation tuple depends on bits 31:8 of the address only (R103). -/
theorem reloc_eq_of_ushiftRight_eq (c : Config) {a a' : Word} (h : a >>> 8 = a' >>> 8) : reloc c a = reloc c a' := by
  have hbits (i : Nat) : a.extractLsb' (8 + i) 8 = a'.extractLsb' (8 + i) 8 := by
    rw [← extractLsb'_ushiftRight, ← extractLsb'_ushiftRight, h]
  simp only [reloc, Tuple.mk.injEq, and_true]
  exact ⟨hbits 16, hbits 8, hbits 0⟩

/-- Settles O39: the bytes of `reloc`, the fourth being `P_AM` two bits up. -/
theorem relocationTuple : Obligations.RelocationTuple := by
  unfold Obligations.RelocationTuple
  refine ⟨fun c addr _ => ⟨rfl, rfl, rfl, ?_, ?_⟩, fun c a a' => reloc_eq_of_ushiftRight_eq c,
    fun c => ⟨rfl, rfl⟩⟩
  · apply BitVec.eq_of_toNat_eq
    simp [reloc, Nat.shiftLeft_eq, Nat.mul_comm]
  · ext i hi
    simp [reloc, show i < 2 from hi]

end Sys2Proof.Machine
end

section
/-! PROOFS. The CSR accessor (O13, O14, O16): the byte lanes of a CSR access, and one equation for each way the phase of
CSR_READ or of CSR_WRITE ends. -/

namespace Sys2Proof.Machine

open Sys2Proof

/-! ### The byte of a CSR access -/

/-- A CSR read returns the last lane of the register value (R102). -/
theorem csrByte_eq_beByte (v : Word) : csrByte v = beByte v 3 :=
  BitVec.setWidth_eq_extractLsb' (by decide)

/-- A CSR write carries its byte in the last lane (R102). -/
@[simp] theorem beByte_csrWord_three (b : Byte) : beByte (csrWord b) 3 = b := by
  simpa [beByte, csrWord] using extractLsb'_field_same b (k := 0) (by decide)

/-- The lanes of a CSR write before the last are 0 (R102). -/
theorem beByte_csrWord_of_lt (b : Byte) {i : Nat} (hi : i < 3) : beByte (csrWord b) i = 0x00#8 := by
  simpa [beByte, csrWord] using extractLsb'_field_disjoint b (k := 0) (i := 8 * (3 - i)) (n := 8) (.inl (by omega))

/-! ### The window check -/

/-- Behind the window check, with no window mapped (R237). -/
theorem withWindow_unmapped {opc : BitVec 4} {k : State → StepResult} {s : State}
    (h : s.operands.winValid = false) :
    withWindow opc k s = .next (s.raiseFault .windowUnmapped (opc.setWidth 32)) := by
  simp [withWindow, h]

/-- Behind the window check, with the window mapped (R237). -/
theorem withWindow_mapped {opc : BitVec 4} {k : State → StepResult} {s : State} (h : s.operands.winValid = true) :
    withWindow opc k s = k s := by
  simp [withWindow, h]

variable {s : State}

/-! ### CSR_READ -/

/-- CSR_READ in `CR_RD` is its one phase. -/
theorem exec_csrRead_of_crRd (hp : s.phase = .crRd) : exec .csrRead s = phaseCrRd s := by
  simp only [exec, execCsrRead, hp]

/-- The slot outside the window: no transaction (R69, R123). -/
theorem phaseCrRd_outside (hw : s.operands.winValid = true) (ha : s.cfg.winSize < slot s.operands.argOff.toNat + 4) :
    phaseCrRd s = .next (s.raiseFault .outOfWindow (BitVec.ofNat 32 (slot s.operands.argOff.toNat))) := by
  rw [phaseCrRd, withWindow_mapped hw, csrRead, memRead, transact_outside ha]

/-- The device answers the read with `b3` in the last lane (R102, R123). -/
theorem phaseCrRd_done (hw : s.operands.winValid = true) (ha : slot s.operands.argOff.toNat + 4 ≤ s.cfg.winSize)
    {b0 b1 b2 b3 : Byte} (hd : s.device.peek = .done b0 b1 b2 b3) :
    phaseCrRd s = .next ((((s.answered.record (.read (slot s.operands.argOff.toNat) (beWord b0 b1 b2 b3))).setRd
      (beWord b0 b1 b2 b3)).setRdata b3).finish .success) := by
  rw [phaseCrRd, withWindow_mapped hw, csrRead, memRead_done ha hd, csrByte_eq_beByte, beByte_beWord_three]

/-- Settles O13: the window check, then the bound of the slot, then the read. -/
theorem csrReadCommand : Obligations.CsrReadCommand := by
  unfold Obligations.CsrReadCommand
  refine ⟨(decodeExactlyTheEncoding _ .csrRead).mpr rfl, fun s hp => ?_⟩
  rw [exec_csrRead_of_crRd hp]
  exact ⟨withWindow_unmapped, phaseCrRd_outside, fun hw ha _ _ _ _ => phaseCrRd_done hw ha⟩

/-! ### CSR_WRITE -/

/-- CSR_WRITE in `CW_WR` is its one phase, whatever byte the command word carries. -/
theorem exec_csrWrite_of_cwWr (b : Byte) (hp : s.phase = .cwWr) : exec (.csrWrite b) s = phaseCwWr s := by
  simp only [exec, execCsrWrite, hp]

/-- The slot outside the window: no transaction (R69, R124). -/
theorem phaseCwWr_outside (hw : s.operands.winValid = true) (ha : s.cfg.winSize < slot s.operands.argOff.toNat + 4) :
    phaseCwWr s = .next (s.raiseFault .outOfWindow (BitVec.ofNat 32 (slot s.operands.argOff.toNat))) := by
  rw [phaseCwWr, withWindow_mapped hw, csrWrite, memWrite, transact_outside ha]

/-- The device accepts the write of the latched byte (R121, R124). -/
theorem phaseCwWr_done (hw : s.operands.winValid = true) (ha : slot s.operands.argOff.toNat + 4 ≤ s.cfg.winSize)
    (hd : s.device.peek.completes) :
    phaseCwWr s = .next ((s.answered.wrote (slot s.operands.argOff.toNat) (csrWord s.operands.argByte)).finish
      .success) := by
  obtain ⟨b0, b1, b2, b3, hd⟩ := hd
  rw [phaseCwWr, withWindow_mapped hw, csrWrite, memWrite_done ha hd]

/-- Settles O14: the window check, then the bound of the slot, then the write. -/
theorem csrWriteCommand : Obligations.CsrWriteCommand := by
  unfold Obligations.CsrWriteCommand
  refine ⟨fun b => (decodeExactlyTheEncoding _ (.csrWrite b)).mpr rfl, fun b s hp => ?_⟩
  rw [exec_csrWrite_of_cwWr b hp]
  exact ⟨withWindow_unmapped, phaseCwWr_outside, phaseCwWr_done⟩

/-- Settles O16: the lanes of the word written are the bytes at the slot, and no other byte of the window changes. -/
theorem csrWriteBytes : Obligations.CsrWriteBytes := by
  unfold Obligations.CsrWriteBytes
  intro b s hp hw ha hd
  refine ⟨_, (exec_csrWrite_of_cwWr b hp).trans (phaseCwWr_done hw ha hd), ?_, fun x hlo hhi => ?_, fun x hx => ?_⟩
  · rw [State.finish_window, State.wrote_window, Memory.read_writeWord_lane _ _ _ (by decide), beByte_csrWord_three]
  · obtain ⟨i, rfl⟩ := Nat.exists_eq_add_of_le hlo
    have hi : i < 3 := Nat.lt_of_add_lt_add_left hhi
    rw [State.finish_window, State.wrote_window, Memory.read_writeWord_lane _ _ _ (hi.trans (by decide)),
      beByte_csrWord_of_lt _ hi]
  · exact Memory.read_writeWord_outside _ _ hx

end Sys2Proof.Machine
end

section
/-! PROOFS. The phases of UNLOCK and of IS_ACTIVE (O18, O21): the trigger write and the identifier read, which LOAD
shares, and one equation for each way a phase ends. -/

namespace Sys2Proof.Machine

open Sys2Proof

variable {s : State}

/-! ### One trigger write -/

/-- The trigger write of unlock word `j`, as an event (R141). -/
def triggerWrite (c : Config) (j : Nat) : BusEvent := .write (ldrBtrigr c) (unlockWord j)

/-- `s` after trigger write `j` alone: the write completed and `j` advanced (R141). -/
def State.triggered (j : Nat) (s : State) : State :=
  (s.answered.wrote (ldrBtrigr s.cfg) (unlockWord j)).setJ (j + 1)

@[simp] theorem State.triggered_status (j : Nat) (s : State) : (s.triggered j).status = s.status := rfl

@[simp] theorem State.triggered_work (j : Nat) (s : State) :
    (s.triggered j).work = { s.work with j := some (j + 1) } := rfl

/-- The trace of R141 is the eight trigger writes in order. -/
theorem unlockTrace_eq_map_triggerWrite (c : Config) : unlockTrace c = (List.range 8).map (triggerWrite c) := by
  obtain ⟨-, hwords⟩ := unlockWords
  rw [unlockTrace, ← hwords, List.map_map]
  rfl

/-- A turn of `UnlockSeq` that the device accepts: `done` goes on after the eighth (R141). -/
theorem unlockTurn_done {done : State → StepResult} {j : Nat} (hc : s.cfg.wf = true) (hj : s.work.j = some j)
    (hlt : j < 8) (hd : s.device.peek.completes) :
    unlockTurn done s = if j + 1 < 8 then .next (s.triggered j) else done (s.triggered j) := by
  have ha : ldrBtrigr s.cfg + 4 ≤ s.cfg.winSize :=
    (Config.loader_onWindow hc (o := s.cfg.offBtrigr) (by simp [Config.loaderOffsets])).2
  obtain ⟨b0, b1, b2, b3, hd⟩ := hd
  rw [unlockTurn, hj, need_some, if_pos hlt, memWrite_done ha hd]
  rfl

/-! ### UNLOCK -/

/-- UNLOCK in `UL_CHK` is its window check. -/
theorem exec_unlock_of_ulChk (hp : s.phase = .ulChk) : exec .unlock s = phaseUlChk s := by
  simp only [exec, execUnlock, hp]

/-- UNLOCK in `UL_TRIG` is one turn of `UnlockSeq`. -/
theorem exec_unlock_of_ulTrig (hp : s.phase = .ulTrig) : exec .unlock s = phaseUlTrig s := by
  simp only [exec, execUnlock, hp]

/-- No window mapped: UNLOCK fails without a transaction (R142). -/
theorem phaseUlChk_unmapped (hw : s.operands.winValid = false) : phaseUlChk s = .next (s.finish .unlockFailed) := by
  simp [phaseUlChk, hw]

/-- The window mapped: the trigger writes begin, at `j = 0` (R142). -/
theorem phaseUlChk_mapped (hw : s.operands.winValid = true) : phaseUlChk s = .next ((s.setJ 0).goto .ulTrig) := by
  simp [phaseUlChk, hw]

/-- Settles O18: the window check, then a trigger write before the eighth, then the eighth. -/
theorem unlockCommand : Obligations.UnlockCommand := by
  unfold Obligations.UnlockCommand
  refine ⟨(decodeExactlyTheEncoding _ .unlock).mpr rfl, fun s hp => ?_, fun s j hc hp hj hlt hd => ?_⟩
  · rw [exec_unlock_of_ulChk hp]
    exact ⟨phaseUlChk_unmapped, phaseUlChk_mapped⟩
  · rw [exec_unlock_of_ulTrig hp, phaseUlTrig, unlockTurn_done hc hj hlt hd]
    by_cases h7 : j = 7
    · rw [if_neg (by omega), if_pos h7, if_pos h7]
      rfl
    · rw [if_pos (by omega), if_neg h7, if_neg h7, ← hp]
      rfl

/-! ### IS_ACTIVE -/

/-- The identifier comparison of R101 is equality with `P_ID_WORD`. -/
theorem idMatches_eq_decide (c : Config) (v : Word) : idMatches c v = decide (v = c.idWord) := rfl

/-- An identifier read that the device answers with `v` (R143). -/
theorem readActive_done {k : Bool → State → StepResult} {v : Word} (hc : s.cfg.wf = true)
    (hv : s.device.peek = Response.ofWord v) :
    readActive k s = k (idMatches s.cfg v) ((s.answered.record (.read (ldrIdr s.cfg) v)).setRd v) := by
  have ha : ldrIdr s.cfg + 4 ≤ s.cfg.winSize :=
    (Config.loader_onWindow hc (o := s.cfg.offIdr) (by simp [Config.loaderOffsets])).2
  rw [readActive, memRead_done ha hv, beWord_beByte]
  rfl

/-- IS_ACTIVE in `IA_RD` is its one phase. -/
theorem exec_isActive_of_iaRd (hp : s.phase = .iaRd) : exec .isActive s = phaseIaRd s := by
  simp only [exec, execIsActive, hp]

/-- `s` after the identifier read of IS_ACTIVE showed `v`: `ACTIVE` and `OUTCOME` say whether it matched (R144). -/
def State.detected (v : Word) (s : State) : State :=
  (((s.answered.record (.read (ldrIdr s.cfg) v)).setRd v).setActive (decide (v = s.cfg.idWord))).finish
    (if v = s.cfg.idWord then .success else .stillLocked)

/-- The identifier read, with the window mapped, decides (R144). -/
theorem phaseIaRd_done {v : Word} (hc : s.cfg.wf = true) (hw : s.operands.winValid = true)
    (hv : s.device.peek = Response.ofWord v) : phaseIaRd s = .next (s.detected v) := by
  rw [phaseIaRd, withWindow_mapped hw, readActive_done hc hv, idMatches_eq_decide]
  simp only [decide_eq_true_eq]
  rfl

/-- Settles O21: the window check, then the one read. -/
theorem isActiveCommand : Obligations.IsActiveCommand := by
  unfold Obligations.IsActiveCommand
  refine ⟨(decodeExactlyTheEncoding _ .isActive).mpr rfl, fun s hc hp => ?_⟩
  rw [exec_isActive_of_iaRd hp]
  exact ⟨withWindow_unmapped, fun hw v hv => phaseIaRd_done hc hw hv⟩

end Sys2Proof.Machine
end

section
/-! PROOFS. UNLOCK and IS_ACTIVE from their offers to their ends, and `probe` (O20): runs in which the host does nothing
but wait, each with the transactions it issues. -/

namespace Sys2Proof.Machine

open Sys2Proof

variable {s t u : State} {cw v : Word} {rest : List HostInput} {es fs more : List BusEvent}

/-! ### Steps of a host that only waits -/

/-- The inputs of a host that leaves the sequencer alone while a command runs: none, or a `wait` first (R105). -/
def onlyWaits (inputs : List HostInput) : Prop := inputs = [] ∨ ∃ rest, inputs = .waitDone :: rest

/-- A command runs on a machine of a configuration it is built for, and the host only waits. -/
structure State.RunsAlone (s : State) : Prop where
  wf : s.cfg.wf = true
  inputs : onlyWaits s.inputs
  busy : s.status.busy = true

/-- A step of such a state is the sequencer's own. -/
theorem State.RunsAlone.step_eq_advance (h : s.RunsAlone) : step s = advance s := by
  rw [step_of_wf h.wf]
  obtain hi | ⟨rest, hi⟩ := h.inputs
  · exact stepInput_nil hi
  · simp [stepInput, hi, h.busy]

/-- Once `STATUS.BUSY = 0` the host's `wait` is over (R105). -/
theorem step_waitDone (hc : s.cfg.wf = true) (hi : s.inputs = .waitDone :: rest) (hb : s.status.busy = false) :
    step s = .next { s with inputs := rest } := by
  rw [step_of_wf hc]
  simp [stepInput, hi, hb, hostInput]

/-- `s` after command `i` is accepted from the head of the host's inputs, `rest` being the others (R90). -/
def State.accepted (i : Instr) (rest : List HostInput) (s : State) : State :=
  State.accept i (firstPhase i) (latchedOperands i s) { s with inputs := rest }

/-- A valid word offered in `IDLE` is accepted (R90). -/
theorem step_offer {i : Instr} (hc : s.cfg.wf = true) (hp : s.phase = .idle) (hi : s.inputs = .offer cw :: rest)
    (hd : decode cw = .ok i) : step s = .next (s.accepted i rest) := by
  rw [acceptanceLatchesOperands s cw i rest hc hp hi hd]
  cases i <;> rfl

/-! ### Runs that issue given transactions -/

/-- `t` is `s` after the sequencer alone issued `es`: they are recorded, the device's answers to them are taken, and the
configuration and what the host and the window provider hold are as they were. -/
structure Issued (es : List BusEvent) (s t : State) : Prop where
  cfg : t.cfg = s.cfg
  winMapped : t.winMapped = s.winMapped
  inputs : t.inputs = s.inputs
  trace : t.trace = es.reverse ++ s.trace
  gives : ∀ {more}, s.device.gives (es ++ more) → t.device.gives more

theorem Issued.refl (s : State) : Issued [] s s := ⟨rfl, rfl, rfl, rfl, id⟩

/-- First `es`, then `fs`. -/
theorem Issued.trans (h : Issued es s t) (h' : Issued fs t u) : Issued (es ++ fs) s u where
  cfg := h'.cfg.trans h.cfg
  winMapped := h'.winMapped.trans h.winMapped
  inputs := h'.inputs.trans h.inputs
  trace := by rw [h'.trace, h.trace, List.reverse_append, List.append_assoc]
  gives hg := h'.gives (h.gives (by rwa [List.append_assoc] at hg))

/-- The host's inputs replaced on both sides. -/
theorem Issued.withInputs (h : Issued es s t) (inputs : List HostInput) :
    Issued es { s with inputs := inputs } { t with inputs := inputs } :=
  ⟨h.cfg, h.winMapped, rfl, h.trace, h.gives⟩

theorem Issued.finish (h : Issued es s t) (o : CmdOutcome) : Issued es s (t.finish o) :=
  ⟨h.cfg, h.winMapped, h.inputs, h.trace, h.gives⟩

/-- Acceptance issues nothing (R90). -/
theorem issued_accepted (i : Instr) (rest : List HostInput) (s : State) :
    Issued [] { s with inputs := rest } (s.accepted i rest) := ⟨rfl, rfl, rfl, rfl, id⟩

/-- `t` is `s` after a command, or several, that issued `es` and left `status`, back in `IDLE`. -/
structure CommandEnd (es : List BusEvent) (status : Status) (s t : State) : Prop where
  issued : Issued es s t
  phase : t.phase = .idle
  status : t.status = status

/-! ### The trigger writes -/

theorem issued_triggered {c : Config} (hc : s.cfg = c) (j : Nat) : Issued [triggerWrite c j] s (s.triggered j) := by
  subst hc
  exact ⟨rfl, rfl, rfl, rfl, And.right⟩

/-- A trigger write before the eighth, of UNLOCK or of LOAD: the phase goes on (R141). -/
theorem advance_triggered {j : Nat} (hc : s.cfg.wf = true) (hp : s.phase = .ulTrig ∨ s.phase = .ldTrig)
    (hj : s.work.j = some j) (hlt : j < 7) (hd : s.device.peek.completes) : advance s = .next (s.triggered j) := by
  have hturn (done : State → StepResult) : unlockTurn done s = .next (s.triggered j) := by
    rw [unlockTurn_done hc hj (by omega) hd, if_pos (by omega)]
  obtain hp | hp := hp
  · rw [advance_of_current (i := .unlock) (State.current_of_phase hp), exec_unlock_of_ulTrig hp]
    exact hturn _
  · rw [advance_of_current (i := .load) (State.current_of_phase hp)]
    simp only [exec, execLoad, hp]
    exact hturn _

/-- `t` is `s` after `j` trigger writes, none of them the eighth: still in the phase of `s`. -/
structure Triggering (j : Nat) (s t : State) : Prop where
  issued : Issued ((List.range j).map (triggerWrite s.cfg)) s t
  phase : t.phase = s.phase
  status : t.status = s.status
  work : t.work = { s.work with j := some j }

theorem Triggering.runsAlone {j : Nat} (h : Triggering j s t) (hs : s.RunsAlone) : t.RunsAlone :=
  ⟨by rw [h.issued.cfg, hs.wf], h.issued.inputs ▸ hs.inputs, by rw [h.status, hs.busy]⟩

/-- The trigger writes before the eighth, one a step, from the first on (R141). -/
theorem run_triggerWrites {j : Nat} (hs : s.RunsAlone) (hp : s.phase = .ulTrig ∨ s.phase = .ldTrig)
    (h0 : s.work.j = some 0) (hj : j ≤ 7) (hg : s.device.gives ((List.range j).map (triggerWrite s.cfg) ++ more)) :
    ∃ t, run j s = .next t ∧ Triggering j s t := by
  induction j generalizing more with
  | zero => exact ⟨s, rfl, .refl s, rfl, rfl, by rw [← h0]⟩
  | succ j ih =>
    simp only [List.range_succ, List.map_append, List.map_singleton, List.append_assoc] at hg
    obtain ⟨t, hrun, ht⟩ := ih (by omega) hg
    have hd : t.device.peek.completes := (ht.issued.gives hg).1
    have hstep : step t = .next (t.triggered j) :=
      (ht.runsAlone hs).step_eq_advance.trans <|
        advance_triggered (ht.runsAlone hs).wf (ht.phase ▸ hp) (by rw [ht.work]) hj hd
    refine ⟨_, run_succ_end hrun hstep, ?_, ht.phase, ht.status, ?_⟩
    · rw [List.range_succ, List.map_append]
      exact ht.issued.trans (issued_triggered ht.issued.cfg j)
    · rw [State.triggered_work, ht.work]

/-! ### UNLOCK -/

/-- The eighth trigger write of UNLOCK ends it (R142). -/
theorem advance_ulTrig_eighth (hc : s.cfg.wf = true) (hp : s.phase = .ulTrig) (hj : s.work.j = some 7)
    (hd : s.device.peek.completes) : advance s = .next ((s.triggered 7).finish .success) := by
  rw [advance_of_current (i := .unlock) (State.current_of_phase hp), exec_unlock_of_ulTrig hp, phaseUlTrig,
    unlockTurn_done hc hj (by decide) hd, if_neg (by decide)]

/-- UNLOCK with the window mapped, from its acceptance on: the check, then the eight writes (R142). -/
theorem run_unlock (hs : s.RunsAlone) (hp : s.phase = .ulChk) (hw : s.operands.winValid = true)
    (hg : s.device.gives (unlockTrace s.cfg ++ more)) :
    ∃ t, run 9 s = .next t ∧
      CommandEnd (unlockTrace s.cfg) { s.status with outcome := .success, busy := false } s t := by
  have hcheck : step s = .next ((s.setJ 0).goto .ulTrig) := by
    rw [hs.step_eq_advance, advance_of_current (i := .unlock) (State.current_of_phase hp), exec_unlock_of_ulChk hp,
      phaseUlChk_mapped hw]
  have henter : Issued [] s ((s.setJ 0).goto .ulTrig) := ⟨rfl, rfl, rfl, rfl, id⟩
  have hentered : ((s.setJ 0).goto .ulTrig).RunsAlone := ⟨hs.wf, hs.inputs, hs.busy⟩
  have htrace : unlockTrace s.cfg = (List.range 7).map (triggerWrite s.cfg) ++ [triggerWrite s.cfg 7] := by
    rw [unlockTrace_eq_map_triggerWrite, List.range_succ, List.map_append, List.map_singleton]
  rw [htrace, List.append_assoc] at hg
  obtain ⟨t, hrun, ht⟩ := run_triggerWrites hentered (.inl rfl) rfl (le_refl 7) hg
  have hd : t.device.peek.completes := (ht.issued.gives hg).1
  have heighth : step t = .next ((t.triggered 7).finish .success) :=
    (ht.runsAlone hentered).step_eq_advance.trans <|
      advance_ulTrig_eighth (ht.runsAlone hentered).wf ht.phase (by rw [ht.work]) hd
  refine ⟨_, (run_succ_of_step hcheck 8).trans (run_succ_end hrun heighth), ?_, rfl, ?_⟩
  · rw [htrace]
    exact henter.trans (ht.issued.trans ((issued_triggered ht.issued.cfg 7).finish _))
  · rw [State.finish_status, State.triggered_status, ht.status]
    rfl

/-- UNLOCK from its offer on. -/
theorem run_offered_unlock (hc : s.cfg.wf = true) (hp : s.phase = .idle) (hm : s.winMapped = true)
    (hi : s.inputs = .offer cw :: rest) (hr : onlyWaits rest) (hd : decode cw = .ok .unlock)
    (hg : s.device.gives (unlockTrace s.cfg ++ more)) :
    ∃ t, run 10 s = .next t ∧ CommandEnd (unlockTrace s.cfg)
      { s.status with busy := false, ovr := false, outcome := .success } { s with inputs := rest } t := by
  obtain ⟨t, hrun, ht⟩ := run_unlock (s := s.accepted .unlock rest) ⟨hc, hr, rfl⟩ rfl hm hg
  exact ⟨t, (run_succ_of_step (step_offer hc hp hi hd) 9).trans hrun,
    (issued_accepted .unlock rest s).trans ht.issued, ht.phase, ht.status⟩

/-! ### IS_ACTIVE -/

/-- The status IS_ACTIVE ends with when its read showed `v` (R144). -/
def Status.detected (c : Config) (v : Word) (s : Status) : Status :=
  { s with
    busy := false
    ovr := false
    active := decide (v = c.idWord)
    outcome := if v = c.idWord then .success else .stillLocked }

theorem issued_detected (v : Word) (s : State) : Issued [.read (ldrIdr s.cfg) v] s (s.detected v) :=
  ⟨rfl, rfl, rfl, rfl, And.right⟩

/-- IS_ACTIVE with the window mapped, from its offer on: one identifier read (R144). -/
theorem run_offered_isActive {c : Config} (hcfg : s.cfg = c) (hc : c.wf = true) (hp : s.phase = .idle)
    (hm : s.winMapped = true) (hi : s.inputs = .offer cw :: rest) (hr : onlyWaits rest)
    (hd : decode cw = .ok .isActive) (hv : s.device.peek = Response.ofWord v) :
    ∃ t, run 2 s = .next t ∧
      CommandEnd [.read (ldrIdr c) v] (s.status.detected c v) { s with inputs := rest } t := by
  subst hcfg
  have hs : (s.accepted .isActive rest).RunsAlone := ⟨hc, hr, rfl⟩
  have hread : step (s.accepted .isActive rest) = .next ((s.accepted .isActive rest).detected v) := by
    rw [hs.step_eq_advance, advance_of_current (i := .isActive) (State.current_of_phase rfl), exec_isActive_of_iaRd rfl,
      phaseIaRd_done hs.wf hm hv]
  exact ⟨_, run_succ_end (run_succ_of_step (step_offer hc hp hi hd) 0) hread,
    (issued_accepted .isActive rest s).trans (issued_detected v (s.accepted .isActive rest)), rfl, rfl⟩

/-! ### `probe` -/

/-- `probe` with the window mapped: UNLOCK and its `wait`, then IS_ACTIVE and its `wait` (R106). -/
theorem run_probe (hc : s.cfg.wf = true) (hp : s.phase = .idle) (hm : s.winMapped = true)
    (hi : s.inputs = AsmLine.inputs s.cfg .probe)
    (hg : s.device.gives (unlockTrace s.cfg ++ [.read (ldrIdr s.cfg) v])) :
    ∃ t, run 14 s = .next t ∧
      CommandEnd (unlockTrace s.cfg ++ [.read (ldrIdr s.cfg) v]) (s.status.detected s.cfg v)
        { s with inputs := [] } t := by
  have hdec (i : Instr) : decode (encode i) = .ok i := (decodeExactlyTheEncoding _ i).mpr rfl
  obtain ⟨t, hrun, ht⟩ := run_offered_unlock hc hp hm hi (.inr ⟨_, rfl⟩) (hdec _) hg
  have hcfg : t.cfg = s.cfg := ht.issued.cfg
  have hwait : step t = .next { t with inputs := [offerInstr .isActive, .waitDone] } :=
    step_waitDone (by rwa [hcfg]) ht.issued.inputs (by rw [ht.status])
  have hv : t.device.peek = Response.ofWord v := (ht.issued.gives hg).1
  obtain ⟨u, hrun', hu⟩ := run_offered_isActive (s := { t with inputs := [offerInstr .isActive, .waitDone] })
    hcfg hc ht.phase (ht.issued.winMapped.trans hm) rfl (.inr ⟨_, rfl⟩) (hdec _) hv
  have hwait' : step u = .next { u with inputs := [] } :=
    step_waitDone (by rwa [hu.issued.cfg, hcfg]) hu.issued.inputs (by rw [hu.status]; rfl)
  refine ⟨{ u with inputs := [] }, ?_, ?_, hu.phase, ?_⟩
  · calc run 14 s = run 4 t := run_add hrun 4
      _ = run 3 { t with inputs := [offerInstr .isActive, .waitDone] } := run_succ_of_step hwait 3
      _ = .next { u with inputs := [] } := run_succ_end hrun' hwait'
  · exact (ht.issued.withInputs []).trans (hu.issued.withInputs [])
  · refine hu.status.trans ?_
    change t.status.detected s.cfg v = _
    rw [ht.status]
    rfl

/-- Settles O20: UNLOCK alone, and `probe`, to whose whole record `DEV_UNLOCK_IDEM` applies. -/
theorem unlockRun : Obligations.UnlockRun := by
  unfold Obligations.UnlockRun
  refine ⟨fun s cw hc hp hm hi hd hg => ?_, fun s v older hc hp hm hi htr hg => ?_⟩
  · obtain ⟨t, hrun, ht⟩ := run_offered_unlock (more := []) hc hp hm hi (.inl rfl) hd (by rwa [List.append_nil])
    exact ⟨t, hrun, ht.phase, ht.issued.trace, ht.status⟩
  · obtain ⟨t, hrun, ht⟩ := run_probe hc hp hm hi hg
    have htrace : t.trace = .read (ldrIdr s.cfg) v :: ((unlockTrace s.cfg).reverse ++ s.trace) := by
      rw [ht.issued.trace, List.reverse_append]
      rfl
    refine ⟨t, hrun, ht.phase, ht.issued.inputs, htrace, fun hidem => ?_⟩
    have hmatch : v = s.cfg.idWord := hidem v older [] (by rw [htrace, htr]; rfl)
    rw [ht.status, Status.detected, if_pos hmatch]
    exact ⟨decide_eq_true hmatch, rfl⟩

end Sys2Proof.Machine
end

section
/-! PROOFS. The phases of LOAD (O22, O23, O25, O26, O28, O29, O30, O33, O34): one equation for each way a phase ends. -/

namespace Sys2Proof

/-- A completed answer is the word of its four bytes. -/
theorem Response.completes_iff {r : Response} : r.completes ↔ ∃ v, r = Response.ofWord v := by
  constructor
  · rintro ⟨b0, b1, b2, b3, rfl⟩
    exact ⟨Machine.beWord b0 b1 b2 b3, by simp [Response.ofWord]⟩
  · rintro ⟨v, rfl⟩
    exact ⟨_, _, _, _, rfl⟩

end Sys2Proof

namespace Sys2Proof.Machine

open Sys2Proof

variable {s : State} {v : Word} {n cnt : Nat}

/-! ### Transactions on the loader's registers -/

/-- A write of a loader register that the device accepts: it lies in the window (R9(1)). -/
theorem memWrite_loader {o : Nat} {k : State → StepResult} (hc : s.cfg.wf = true) (ho : o ∈ s.cfg.loaderOffsets)
    (hd : s.device.peek.completes) :
    memWrite (s.cfg.ldrBase + o) v k s = k (s.answered.wrote (s.cfg.ldrBase + o) v) := by
  obtain ⟨b0, b1, b2, b3, hd⟩ := hd
  exact memWrite_done (Config.loader_onWindow hc ho).2 hd

/-- A read of a loader register that the device answers with `v`. -/
theorem memRead_loader {o : Nat} {k : Word → State → StepResult} (hc : s.cfg.wf = true) (ho : o ∈ s.cfg.loaderOffsets)
    (hv : s.device.peek = Response.ofWord v) :
    memRead (s.cfg.ldrBase + o) k s = k v ((s.answered.record (.read (s.cfg.ldrBase + o) v)).setRd v) := by
  rw [memRead_done (Config.loader_onWindow hc ho).2 hv, beWord_beByte]

/-! ### The checks -/

theorem imageLen_eq_zero_iff : imageLen s = 0 ↔ s.operands.imgLen = 0#32 :=
  BitVec.toNat_inj (y := 0#32)

/-- A null image, an empty one or no window mapped: no transaction (R161). -/
theorem exec_load_ldChk_refused (hp : s.phase = .ldChk)
    (h : s.operands.imgValid = false ∨ s.operands.imgLen = 0#32 ∨ s.operands.winValid = false) :
    exec .load s = .next (s.finish .bitstreamRejected) := by
  simp only [exec, execLoad, hp, phaseLdChk, imageLen_eq_zero_iff]
  by_cases himg : s.operands.imgValid = false ∨ s.operands.imgLen = 0#32
  · rw [if_pos himg]
  · have hw : s.operands.winValid = false := (or_assoc.mpr h).resolve_left himg
    rw [if_neg himg, if_neg (by simp [hw])]

/-- Any other image: the trigger writes begin, at `j = 0` (R161). -/
theorem exec_load_ldChk_passed (hp : s.phase = .ldChk) (hv : s.operands.imgValid = true)
    (hl : s.operands.imgLen ≠ 0#32) (hw : s.operands.winValid = true) :
    exec .load s = .next ((s.setJ 0).goto .ldTrig) := by
  simp [exec, execLoad, hp, phaseLdChk, imageLen_eq_zero_iff, hv, hl, hw]

/-- Settles O22: the two ways the checks end. -/
theorem loadChecks : Obligations.LoadChecks := by
  unfold Obligations.LoadChecks
  exact fun s hp => ⟨exec_load_ldChk_refused hp, exec_load_ldChk_passed hp⟩

/-! ### Unlock and detection -/

/-- One trigger write, the eighth of which leads to the detection (R141, R162). -/
theorem exec_load_ldTrig {j : Nat} (hc : s.cfg.wf = true) (hp : s.phase = .ldTrig) (hj : s.work.j = some j)
    (hlt : j < 8) (hd : s.device.peek.completes) :
    exec .load s = .next ((s.triggered j).goto (if j = 7 then .ldDet else .ldTrig)) := by
  have hturn : exec .load s = unlockTurn (fun s => .next (s.goto .ldDet)) s := by
    simp only [exec, execLoad, hp, phaseLdTrig]
  rw [hturn, unlockTurn_done hc hj hlt hd]
  by_cases h7 : j = 7
  · rw [if_neg (by omega), if_pos h7]
  · rw [if_pos (by omega), if_neg h7, ← hp]
    rfl

/-- The identifier read of LOAD matches: the loader is active (R143, R162). -/
theorem exec_load_ldDet_match (hc : s.cfg.wf = true) (hp : s.phase = .ldDet)
    (hv : s.device.peek = Response.ofWord s.cfg.idWord) :
    exec .load s = .next ((((s.answered.record (.read (ldrIdr s.cfg) s.cfg.idWord)).setRd s.cfg.idWord).setActive
      true).goto .ldSwrst) := by
  simp only [exec, execLoad, hp, phaseLdDet]
  rw [readActive_done hc hv, idMatches_eq_decide]
  exact if_pos (decide_eq_true rfl)

/-- It does not match: LOAD is over (R162). -/
theorem exec_load_ldDet_mismatch (hc : s.cfg.wf = true) (hp : s.phase = .ldDet)
    (hv : s.device.peek = Response.ofWord v) (hne : v ≠ s.cfg.idWord) :
    exec .load s = .next ((((s.answered.record (.read (ldrIdr s.cfg) v)).setRd v).setActive false).finish
      .stillLocked) := by
  simp only [exec, execLoad, hp, phaseLdDet]
  rw [readActive_done hc hv, idMatches_eq_decide]
  exact if_neg (by simpa using hne)

/-- Settles O23: the trigger write, and both results of the detection. -/
theorem loadDetection : Obligations.LoadDetection := by
  unfold Obligations.LoadDetection
  refine ⟨fun s j hc hp hj hlt hd => exec_load_ldTrig hc hp hj hlt hd, fun s v hc hp hv => ?_⟩
  by_cases h : v = s.cfg.idWord
  · subst h
    rw [exec_load_ldDet_match hc hp hv, if_pos rfl, if_pos rfl]
    rfl
  · rw [exec_load_ldDet_mismatch hc hp hv h, if_neg h, if_neg h]
    rfl

/-! ### Session start -/

/-- The software reset of the loader (R163). -/
theorem exec_load_ldSwrst (hc : s.cfg.wf = true) (hp : s.phase = .ldSwrst) (hd : s.device.peek.completes) :
    exec .load s = .next ((s.answered.wrote (ldrCsr s.cfg) (wSwrst s.cfg)).goto .ldStart) := by
  simp only [exec, execLoad, hp, phaseLdSwrst]
  exact memWrite_loader hc (by simp [Config.loaderOffsets]) hd

/-- The start of the session (R163). -/
theorem exec_load_ldStart (hc : s.cfg.wf = true) (hp : s.phase = .ldStart) (hd : s.device.peek.completes) :
    exec .load s =
      .next ((((s.answered.wrote (ldrCsr s.cfg) (wStart s.cfg)).setN 0).setPcCnt 0).goto .ldPollf) := by
  simp only [exec, execLoad, hp, phaseLdStart]
  exact memWrite_loader hc (by simp [Config.loaderOffsets]) hd

/-- Settles O25: the two writes to the loader CSR. -/
theorem sessionStart : Obligations.SessionStart := by
  unfold Obligations.SessionStart
  exact fun s hc hd => ⟨fun hp => exec_load_ldSwrst hc hp hd, fun hp => exec_load_ldStart hc hp hd⟩

/-! ### One poll -/

theorem flagSet_iff {v flag : Word} : flagSet v flag = true ↔ v &&& flag ≠ 0#32 := bne_iff_ne

theorem flagSet_eq_false_iff {v flag : Word} : flagSet v flag = false ↔ v &&& flag = 0#32 := bne_eq_false_iff_eq

/-- `s` after an unsatisfied poll that read `v` at `a`, `cnt` polls of the wait being counted before it (R173). -/
def State.polled (a : Nat) (v : Word) (cnt : Nat) (s : State) : State :=
  ((s.answered.record (.read a v)).setRd v).setPcCnt (cnt + 1)

/-- An unsatisfied poll below the bound, or with no bound: the poll is repeated (R173). -/
theorem pollAgain_counted {a : Nat} (hcnt : s.work.pcCnt = some cnt) (hlim : s.cfg.pollLimit ≠ some (cnt + 1)) :
    pollAgain ((s.answered.record (.read a v)).setRd v) = .next (s.polled a v cnt) := by
  simp [pollAgain, State.polled, hcnt, limitReached, hlim]

/-- The unsatisfied poll that reaches the bound ends the session with `Timeout` (R173). -/
theorem pollAgain_limit {a : Nat} (hcnt : s.work.pcCnt = some cnt) (hlim : s.cfg.pollLimit = some (cnt + 1)) :
    pollAgain ((s.answered.record (.read a v)).setRd v) =
      .next (((s.polled a v cnt).setRes .timeout).goto .ldExit) := by
  simp [pollAgain, State.polled, hcnt, limitReached, hlim]

/-! ### The FIFO poll -/

/-- The whole image pushed: the completion poll begins, without a transaction (R169). -/
theorem exec_load_ldPollf_streamed (hp : s.phase = .ldPollf) (hn : s.work.n = some n) (hle : imageLen s ≤ n) :
    exec .load s = .next ((s.setPcCnt 0).goto .ldPolld) := by
  simp [exec, execLoad, hp, phaseLdPollf, hn, hle]

/-- A FIFO poll that finds room (R168). -/
theorem exec_load_ldPollf_room (hc : s.cfg.wf = true) (hv : s.device.peek = Response.ofWord v)
    (hp : s.phase = .ldPollf) (hn : s.work.n = some n) (hlt : n < imageLen s) (hroom : fifoIsFull s.cfg v = false) :
    exec .load s =
      .next ((((s.answered.record (.read (ldrFifoCsr s.cfg) v)).setRd v).setPcCnt 0).goto .ldCtl) := by
  simp only [exec, execLoad, hp, phaseLdPollf, hn, need_some, if_neg (Nat.not_le_of_lt hlt)]
  rw [ldrFifoCsr, memRead_loader hc (by simp [Config.loaderOffsets]) hv]
  exact if_neg (by simp [hroom])

/-- Settles O26: no chunk left; room; full below the bound; full at the bound. -/
theorem fifoPoll : Obligations.FifoPoll := by
  unfold Obligations.FifoPoll
  refine fun s n hc hp hn => ⟨exec_load_ldPollf_streamed hp hn, fun hlt v hv =>
    ⟨fun hroom => ?_, fun hfull cnt hcnt => ?_⟩⟩
  · exact exec_load_ldPollf_room hc hv hp hn hlt (flagSet_eq_false_iff.mpr hroom)
  · rw [exec_load_ldPollf hc hv hp hn hlt (flagSet_iff.mpr hfull)]
    exact ⟨fun hlim => pollAgain_counted hcnt hlim, fun hlim => by rw [pollAgain_limit hcnt hlim]; rfl⟩

/-! ### The two writes of a chunk -/

/-- The last flag as the pseudocode computes it is the one R166 words, for every chunk of the image. -/
theorem lastFlag_eq_chunkIsLast (c : Config) {len i : Nat} (hi : i < chunkCount len) :
    lastFlag c len (4 * i) = chunkIsLast c len i := by
  have hcount : chunkCount len = (len + 3) / 4 := rfl
  have hfinal : len - 4 * i ≤ 4 ↔ i + 1 = chunkCount len := by omega
  have hshort : chunkLen len (4 * i) < 4 ↔ len - 4 * i < 4 := by unfold chunkLen; omega
  cases hfull : c.lastOnFull
  · simp only [lastFlag, chunkIsLast, hfull, hshort, Bool.or_false, Bool.false_eq_true, if_false, ← Bool.decide_and]
    exact decide_eq_decide.mpr (by omega)
  · simp [lastFlag, chunkIsLast, hfull, hfinal]

/-- Settles O28: the flag of R166, for both settings of `P_LAST_ON_FULL`. -/
theorem lastFlagOnFinalChunk : Obligations.LastFlagOnFinalChunk := by
  unfold Obligations.LastFlagOnFinalChunk
  intro c len i _ hi
  rw [lastFlag_eq_chunkIsLast c hi]
  refine ⟨fun hfull => ?_, fun hfull => ?_⟩
  · rw [chunkIsLast, if_pos hfull]
    exact decide_eq_true_iff
  · simp [chunkIsLast, hfull]

/-- The control word of the chunk at `n` (R165). -/
theorem exec_load_ldCtl (hc : s.cfg.wf = true) (hp : s.phase = .ldCtl) (hn : s.work.n = some n)
    (hd : s.device.peek.completes) :
    exec .load s = .next ((s.answered.wrote (ldrFifoR0 s.cfg)
      (ctrlWord s.cfg (chunkLen (imageLen s) n) (lastFlag s.cfg (imageLen s) n))).goto .ldData) := by
  simp only [exec, execLoad, hp, phaseLdCtl, hn, need_some]
  exact memWrite_loader hc (by simp [Config.loaderOffsets]) hd

/-- Settles O29: one write of the control word. -/
theorem controlWordWrite : Obligations.ControlWordWrite := by
  unfold Obligations.ControlWordWrite
  exact fun s n hc hp hn hd => exec_load_ldCtl hc hp hn hd

/-- The data word of the chunk at `n` (R167). -/
theorem exec_load_ldData (hc : s.cfg.wf = true) (hp : s.phase = .ldData) (hn : s.work.n = some n)
    (hd : s.device.peek.completes) :
    exec .load s = .next ((((s.answered.wrote (ldrFifoR1 s.cfg)
      (dataWord s.image (imageLen s) n s.draws)).drawn 4).setN (n + 4)).goto .ldPollf) := by
  simp only [exec, execLoad, hp, phaseLdData, hn, need_some]
  exact memWrite_loader hc (by simp [Config.loaderOffsets]) hd

/-- Below `L`, where the image reaches, lane `i` of a data word is the image's byte (R100, R167). -/
theorem beByte_dataWord_of_lt {image : List Byte} {len i d : Nat} {b : Byte} (hi : i < 4) (hlt : n + i < len)
    (hb : image[n + i]? = some b) : beByte (dataWord image len n d) i = b := by
  rw [beByte_dataWord image len n d hi, chunkByte_of_lt hlt hb]

/-- Settles O30: the lanes of the data word, the highest first, and the write of it. -/
theorem dataWordWrite : Obligations.DataWordWrite := by
  unfold Obligations.DataWordWrite
  intro s n hc hp hn hd
  refine ⟨dataWord s.image (imageLen s) n s.draws, ?_, ?_, ?_, ?_, exec_load_ldData hc hp hn hd⟩
  · exact fun hlt _ hb => beByte_dataWord_of_lt (i := 0) (by decide) hlt hb
  · exact fun hlt _ hb => beByte_dataWord_of_lt (i := 1) (by decide) hlt hb
  · exact fun hlt _ hb => beByte_dataWord_of_lt (i := 2) (by decide) hlt hb
  · exact fun hlt _ hb => beByte_dataWord_of_lt (i := 3) (by decide) hlt hb

/-! ### The completion poll and the exit write -/

/-- The outcome of a session by the error flag of its done read (R171). -/
theorem sessionOutcome_eq (c : Config) (v : Word) :
    sessionOutcome c v = if v &&& c.csrError ≠ 0#32 then .bitstreamRejected else .success := by
  simp only [sessionOutcome, isError, flagSet_iff]

/-- A completion poll with `P_CSR_DONE` set (R170, R171). -/
theorem exec_load_ldPolld_done (hc : s.cfg.wf = true) (hv : s.device.peek = Response.ofWord v)
    (hp : s.phase = .ldPolld) (hdone : isDone s.cfg v = true) :
    exec .load s = .next ((((s.answered.record (.read (ldrCsr s.cfg) v)).setRd v).setRes
      (sessionOutcome s.cfg v)).goto .ldExit) := by
  simp only [exec, execLoad, hp, phaseLdPolld]
  rw [ldrCsr, memRead_loader hc (by simp [Config.loaderOffsets]) hv]
  exact if_pos hdone

/-- Settles O33: done; not done below the bound; not done at the bound. -/
theorem completionPoll : Obligations.CompletionPoll := by
  unfold Obligations.CompletionPoll
  refine fun s v hc hp hv => ⟨fun hdone => ?_, fun hdone cnt hcnt => ?_⟩
  · rw [exec_load_ldPolld_done hc hv hp (flagSet_iff.mpr hdone), sessionOutcome_eq]
    rfl
  · rw [exec_load_ldPolld hc hv hp (flagSet_eq_false_iff.mpr hdone)]
    exact ⟨fun hlim => pollAgain_counted hcnt hlim, fun hlim => by rw [pollAgain_limit hcnt hlim]; rfl⟩

/-- The exit write, which reports `res` (R172). -/
theorem exec_load_ldExit_done {res : CmdOutcome} (hc : s.cfg.wf = true) (hp : s.phase = .ldExit)
    (hres : s.work.res = some res) (hd : s.device.peek.completes) :
    exec .load s = .next ((s.answered.wrote (ldrCsr s.cfg) (wExit s.cfg)).finish res) := by
  obtain ⟨v, hv⟩ := Response.completes_iff.mp hd
  rw [exec_load_ldExit hc hv hp, hres, need_some]

/-- Settles O34: one write, whatever `res` is. -/
theorem exitHandshake : Obligations.ExitHandshake := by
  unfold Obligations.ExitHandshake
  exact fun s res hc hp hres hd => exec_load_ldExit_done hc hp hres hd

end Sys2Proof.Machine
end

section
/-! PROOFS. LOAD from its offer to its detection (O24): runs in which the host does nothing but wait, each with the
transactions it issues. -/

namespace Sys2Proof.Machine

open Sys2Proof

variable {s t u : State} {cw v : Word} {k k' : Nat} {es fs more : List BusEvent}

/-! ### Runs of LOAD -/

/-- `t` is `s` after the sequencer alone took `k` steps of LOAD that issued `es` and left the status, the operands and the
image as they were. -/
structure Streamed (k : Nat) (es : List BusEvent) (s t : State) : Prop where
  run : run k s = .next t
  issued : Issued es s t
  status : t.status = s.status
  operands : t.operands = s.operands
  image : t.image = s.image

theorem Streamed.refl (s : State) : Streamed 0 [] s s := ⟨rfl, .refl s, rfl, rfl, rfl⟩

/-- First `k` steps, then `k'`. -/
theorem Streamed.trans (h : Streamed k es s t) (h' : Streamed k' fs t u) : Streamed (k + k') (es ++ fs) s u where
  run := (run_add h.run k').trans h'.run
  issued := h.issued.trans h'.issued
  status := h'.status.trans h.status
  operands := h'.operands.trans h.operands
  image := h'.image.trans h.image

theorem Streamed.runsAlone (h : Streamed k es s t) (hs : s.RunsAlone) : t.RunsAlone :=
  ⟨by rw [h.issued.cfg, hs.wf], h.issued.inputs ▸ hs.inputs, by rw [h.status, hs.busy]⟩

theorem Streamed.imageLen (h : Streamed k es s t) : imageLen t = imageLen s := by
  rw [Machine.imageLen, h.operands, Machine.imageLen]

/-- A step of LOAD, the host only waiting, is the step of its phase. -/
theorem State.RunsAlone.step_eq_load (hs : s.RunsAlone) (hcur : s.current = some .load) : step s = exec .load s :=
  hs.step_eq_advance.trans (advance_of_current hcur)

/-- One step of LOAD. -/
theorem State.RunsAlone.run_one (hs : s.RunsAlone) (hcur : s.current = some .load) (h : exec .load s = .next t) :
    run 1 s = .next t :=
  run_succ_of_step ((hs.step_eq_load hcur).trans h) 0

/-- The step as a run that issues `es`. -/
theorem State.RunsAlone.streamed_one (hs : s.RunsAlone) (es : List BusEvent) (hcur : s.current = some .load)
    (h : exec .load s = .next t) (hissued : Issued es s t) (hstatus : t.status = s.status)
    (hoperands : t.operands = s.operands) (himage : t.image = s.image) : Streamed 1 es s t :=
  ⟨hs.run_one hcur h, hissued, hstatus, hoperands, himage⟩

theorem Issued.goto (h : Issued es s t) (p : Phase) : Issued es s (t.goto p) :=
  ⟨h.cfg, h.winMapped, h.inputs, h.trace, h.gives⟩

/-! ### The checks and the trigger writes -/

/-- What one trigger write leaves as it was, the trigger writes before the eighth leave as it was. -/
theorem Triggering.keeps {α : Type} {f : State → α} {j : Nat} (hf : ∀ j u, f (u.triggered j) = f u) (hs : s.RunsAlone)
    (hp : s.phase = .ulTrig ∨ s.phase = .ldTrig) (h0 : s.work.j = some 0) (hj : j ≤ 7)
    (hg : s.device.gives ((List.range j).map (triggerWrite s.cfg) ++ more)) (hrun : run j s = .next t) : f t = f s := by
  induction j generalizing t more with
  | zero => cases hrun; rfl
  | succ j ih =>
    simp only [List.range_succ, List.map_append, List.map_singleton, List.append_assoc] at hg
    obtain ⟨u, hu, htrig⟩ := run_triggerWrites hs hp h0 (by omega) hg
    have halone := htrig.runsAlone hs
    have hstep : step u = .next (u.triggered j) := halone.step_eq_advance.trans <|
      advance_triggered halone.wf (htrig.phase ▸ hp) (by rw [htrig.work]) hj (htrig.issued.gives hg).1
    cases hrun.symm.trans (run_succ_end hu hstep)
    rw [hf, ih (by omega) hg hu]

/-- The eight trigger writes of LOAD (R162). -/
theorem run_ldTrig (hs : s.RunsAlone) (hp : s.phase = .ldTrig) (h0 : s.work.j = some 0)
    (hg : s.device.gives (unlockTrace s.cfg ++ more)) :
    ∃ t, Streamed 8 (unlockTrace s.cfg) s t ∧ t.phase = .ldDet ∧ t.draws = s.draws := by
  have htrace : unlockTrace s.cfg = (List.range 7).map (triggerWrite s.cfg) ++ [triggerWrite s.cfg 7] := by
    rw [unlockTrace_eq_map_triggerWrite, List.range_succ, List.map_append, List.map_singleton]
  rw [htrace, List.append_assoc] at hg
  obtain ⟨t, hrun, ht⟩ := run_triggerWrites hs (.inr hp) h0 (le_refl 7) hg
  have hkeeps {α : Type} (f : State → α) (hf : ∀ j u, f (u.triggered j) = f u) : f t = f s :=
    Triggering.keeps hf hs (.inr hp) h0 (le_refl 7) hg hrun
  have hfirst : Streamed 7 ((List.range 7).map (triggerWrite s.cfg)) s t :=
    ⟨hrun, ht.issued, ht.status, hkeeps State.operands fun _ _ => rfl, hkeeps State.image fun _ _ => rfl⟩
  have heighth : Streamed 1 [triggerWrite s.cfg 7] t ((t.triggered 7).goto .ldDet) := by
    have halone := ht.runsAlone hs
    have hpt : t.phase = .ldTrig := ht.phase.trans hp
    exact halone.streamed_one _ (State.current_of_phase hpt)
      (exec_load_ldTrig halone.wf hpt (by rw [ht.work]) (by decide) (ht.issued.gives hg).1)
      ((issued_triggered ht.issued.cfg 7).goto .ldDet) rfl rfl rfl
  refine ⟨(t.triggered 7).goto .ldDet, ?_, rfl, hkeeps State.draws fun _ _ => rfl⟩
  rw [htrace]
  exact hfirst.trans heighth

/-- LOAD with the window mapped and an image, from its offer to its detection (R161, R162). -/
theorem run_offered_load (hc : s.cfg.wf = true) (hp : s.phase = .idle) (hm : s.winMapped = true)
    (hv : s.port.imgValid = true) (hl : s.port.imgLen ≠ 0#32) (hi : s.inputs = [.offer cw])
    (hd : decode cw = .ok .load) (hg : s.device.gives (unlockTrace s.cfg ++ more)) :
    ∃ t, run 10 s = .next t ∧ Streamed 9 (unlockTrace s.cfg) (s.accepted .load []) t ∧ t.phase = .ldDet ∧
      t.draws = s.draws := by
  have hs : (s.accepted .load []).RunsAlone := ⟨hc, .inl rfl, rfl⟩
  have hcheck : Streamed 1 [] (s.accepted .load []) (((s.accepted .load []).setJ 0).goto .ldTrig) :=
    hs.streamed_one [] (State.current_of_phase rfl) (exec_load_ldChk_passed rfl hv hl hm) ⟨rfl, rfl, rfl, rfl, id⟩ rfl
      rfl rfl
  obtain ⟨t, ht, hpt, hdt⟩ := run_ldTrig (hcheck.runsAlone hs) rfl rfl hg
  have hall := hcheck.trans ht
  exact ⟨t, (run_succ_of_step (step_offer hc hp hi hd) 9).trans hall.run, hall, hpt, hdt⟩

/-! ### The detection -/

/-- The identifier read matches: the session begins (R162). -/
theorem run_detection (hs : s.RunsAlone) (hp : s.phase = .ldDet) (hv : s.device.peek = Response.ofWord s.cfg.idWord) :
    ∃ t, run 1 s = .next t ∧ Issued [.read (ldrIdr s.cfg) s.cfg.idWord] s t ∧ t.phase = .ldSwrst ∧
      t.status = { s.status with active := true } ∧ t.operands = s.operands ∧ t.image = s.image ∧ t.draws = s.draws :=
  ⟨_, hs.run_one (State.current_of_phase hp) (exec_load_ldDet_match hs.wf hp hv), ⟨rfl, rfl, rfl, rfl, And.right⟩, rfl,
    rfl, rfl, rfl, rfl⟩

/-- It does not match: LOAD ends with `StillLocked` (R162). -/
theorem run_stillLocked (hs : s.RunsAlone) (hp : s.phase = .ldDet) (hv : s.device.peek = Response.ofWord v)
    (hne : v ≠ s.cfg.idWord) :
    ∃ t, run 1 s = .next t ∧ CommandEnd [.read (ldrIdr s.cfg) v]
      { s.status with active := false, outcome := .stillLocked, busy := false } s t :=
  ⟨_, hs.run_one (State.current_of_phase hp) (exec_load_ldDet_mismatch hs.wf hp hv hne),
    ⟨rfl, rfl, rfl, rfl, And.right⟩, rfl, rfl⟩

/-- Settles O24: from the offer to the detection, whose read does not match. -/
theorem loadStillLockedRun : Obligations.LoadStillLockedRun := by
  unfold Obligations.LoadStillLockedRun
  intro s cw v hc hp hm hvalid himg hi hd hne hg
  obtain ⟨t, hrun, ht, hpt, -⟩ := run_offered_load hc hp hm hvalid himg hi hd hg
  have hcfg : t.cfg = s.cfg := ht.issued.cfg
  obtain ⟨u, hrunu, hu⟩ := run_stillLocked (ht.runsAlone ⟨hc, .inl rfl, rfl⟩) hpt (ht.issued.gives hg).1 (by rwa [hcfg])
  rw [hcfg] at hu
  have htrace := (ht.issued.trans hu.issued).trace
  rw [List.reverse_append] at htrace
  refine ⟨u, (run_add hrun 1).trans hrunu, hu.phase, htrace, ?_⟩
  rw [hu.status, ht.status]
  rfl

end Sys2Proof.Machine
end

section
/-! PROOFS. The two polls of LOAD, each read leaving them unsatisfied, for a number of reads or for ever (O38), and the
one way out of a session (O35). -/

namespace Sys2Proof.Machine

open Sys2Proof

variable {s t : State} {v : Word} {cnt a : Nat} {vs : List Word} {more : List BusEvent}

/-! ### A wait -/

/-- `s` is in a poll of the register at `a`, and the value `v` leaves it unsatisfied (R168, R170). -/
def State.waitsOn (s : State) (a : Nat) (v : Word) : Prop :=
  (s.phase = .ldPollf ∧ a = ldrFifoCsr s.cfg ∧ fifoIsFull s.cfg v = true ∧ ∃ n, s.work.n = some n ∧ n < imageLen s) ∨
  (s.phase = .ldPolld ∧ a = ldrCsr s.cfg ∧ isDone s.cfg v = false)

theorem State.waitsOn.current (h : s.waitsOn a v) : s.current = some .load := by
  obtain ⟨hp, -⟩ | ⟨hp, -⟩ := h <;> exact State.current_of_phase hp

/-- An unsatisfied poll below the bound, in either poll (R173). -/
theorem exec_load_polled (hc : s.cfg.wf = true) (h : s.waitsOn a v) (hv : s.device.peek = Response.ofWord v)
    (hcnt : s.work.pcCnt = some cnt) (hlim : s.cfg.pollLimit ≠ some (cnt + 1)) :
    exec .load s = .next (s.polled a v cnt) := by
  obtain ⟨hp, rfl, hfull, n, hn, hlt⟩ | ⟨hp, rfl, hdone⟩ := h
  · rw [exec_load_ldPollf hc hv hp hn hlt hfull, pollAgain_counted hcnt hlim]
  · rw [exec_load_ldPolld hc hv hp hdone, pollAgain_counted hcnt hlim]

theorem State.RunsAlone.streamed_polled (hs : s.RunsAlone) (h : s.waitsOn a v) (hv : s.device.peek = Response.ofWord v)
    (hcnt : s.work.pcCnt = some cnt) (hlim : s.cfg.pollLimit ≠ some (cnt + 1)) :
    Streamed 1 [.read a v] s (s.polled a v cnt) :=
  hs.streamed_one _ h.current (exec_load_polled hs.wf h hv hcnt hlim) ⟨rfl, rfl, rfl, rfl, And.right⟩ rfl rfl rfl

/-- What a wait leaves as it was, beside what `Streamed` says. -/
structure Waited (s t : State) : Prop where
  phase : t.phase = s.phase
  n : t.work.n = s.work.n
  draws : t.draws = s.draws

/-- The reads of a wait, each of which leaves the poll unsatisfied, all below the bound if there is one (R173). -/
theorem run_polls (hs : s.RunsAlone) (hvs : ∀ v ∈ vs, s.waitsOn a v) (hcnt : s.work.pcCnt = some cnt)
    (hlim : ∀ m, s.cfg.pollLimit = some m → cnt + vs.length < m) (hg : s.device.gives (vs.map (.read a) ++ more)) :
    ∃ t, Streamed vs.length (vs.map (.read a)) s t ∧ Waited s t := by
  induction vs generalizing s cnt with
  | nil => exact ⟨s, .refl s, rfl, rfl, rfl⟩
  | cons v vs ih =>
    obtain ⟨hv, hrest⟩ := hg
    rw [List.length_cons] at hlim
    have hne : s.cfg.pollLimit ≠ some (cnt + 1) := fun h => absurd (hlim _ h) (by omega)
    have hlim' : ∀ m, s.cfg.pollLimit = some m → cnt + 1 + vs.length < m := fun m hm => by
      have hlt := hlim m hm
      omega
    have hfirst := hs.streamed_polled (hvs v List.mem_cons_self) hv hcnt hne
    obtain ⟨t, ht, hw⟩ := ih (s := s.polled a v cnt) (hfirst.runsAlone hs) (fun w hw => hvs w (List.mem_cons_of_mem v hw))
      rfl hlim' hrest
    refine ⟨t, ?_, hw.phase, hw.n, hw.draws⟩
    rw [List.length_cons, Nat.add_comm]
    exact hfirst.trans ht

/-! ### The endless polls -/

/-- A device that completes every transaction gives as many reads as it is asked, each with the value it shows. -/
theorem gives_reads {d : Device} (h : ∀ m, (d.later m).peek.completes) (a k : Nat) :
    d.gives (((List.range k).map d.value).map (.read a)) := by
  induction k generalizing d with
  | zero => exact trivial
  | succ k ih =>
    rw [List.range_succ_eq_map, List.map_cons, List.map_map, List.map_cons]
    refine ⟨?_, ih fun m => h (m + 1)⟩
    obtain ⟨v, hv⟩ := Response.completes_iff.mp (h 0)
    change d.peek = _ at hv
    rw [hv]
    simp [Device.value, Device.later, hv, Response.ofWord]

/-- With no bound, a poll that every answer to come leaves unsatisfied is repeated for ever (R177). -/
theorem run_polls_forever (hs : s.RunsAlone) (hlim : s.cfg.pollLimit = none) (hcnt : s.work.pcCnt = some cnt)
    (hd : ∀ m, (s.device.later m).peek.completes) (h : ∀ m, s.waitsOn a (s.device.value m)) (k : Nat) :
    ∃ t, run k s = .next t ∧ t.phase = s.phase ∧ t.status.busy = true ∧
      t.trace = ((List.range k).map fun m => .read a (s.device.value m)).reverse ++ s.trace := by
  have hvs : ∀ v ∈ (List.range k).map s.device.value, s.waitsOn a v := by
    simp only [List.mem_map]
    rintro _ ⟨m, -, rfl⟩
    exact h m
  have hg := gives_reads hd a k
  rw [← List.append_nil (List.map _ _)] at hg
  obtain ⟨t, ht, hw⟩ := run_polls hs hvs hcnt (by simp [hlim]) hg
  have hrun := ht.run
  have htrace := ht.issued.trace
  rw [List.length_map, List.length_range] at hrun
  rw [List.map_map] at htrace
  exact ⟨t, hrun, hw.phase, (ht.runsAlone hs).busy, htrace⟩

/-- Settles O38: both polls, left unsatisfied by every answer to come. -/
theorem fullForeverPollsForever : Obligations.FullForeverPollsForever := by
  unfold Obligations.FullForeverPollsForever
  intro s cnt hc hlim hi hb hcnt hd
  have hs : s.RunsAlone := ⟨hc, .inl hi, hb⟩
  refine ⟨fun n hp hn hlt hfull k => ?_, fun hp hdone k => ?_⟩
  · rw [← hp]
    exact run_polls_forever hs hlim hcnt hd (fun m => .inl ⟨hp, rfl, flagSet_iff.mpr (hfull m), n, hn, hlt⟩) k
  · rw [← hp]
    exact run_polls_forever hs hlim hcnt hd (fun m => .inr ⟨hp, rfl, flagSet_eq_false_iff.mpr (hdone m)⟩) k

/-! ### The end of a session -/

/-- After the start write only the exit phase leads to `IDLE` (R30, R172). -/
theorem phase_eq_ldExit {p : Phase} (hp : p ∈ [Phase.ldPollf, .ldCtl, .ldData, .ldPolld, .ldExit])
    (h : .idle ∈ p.successors) : p = .ldExit := by
  simp only [List.mem_cons, List.not_mem_nil, or_false] at hp
  rcases hp with rfl | rfl | rfl | rfl | rfl <;> simp [Phase.successors] at h ⊢

/-- The step of the exit phase that leads to `IDLE` is the one whose write the device completes (R172). -/
theorem trace_of_ldExit_to_idle (hp : s.phase = .ldExit) (h : advance s = .next t) (ht : t.phase = .idle) :
    t.trace = .write (ldrCsr s.cfg) (wExit s.cfg) :: s.trace := by
  have hx : s.pending = some (.write (ldrCsr s.cfg) (wExit s.cfg)) := by simp only [State.pending, hp]
  have hm := advance_matches s
  rw [hx] at hm
  obtain ⟨k, hk, hv⟩ := hm
  rw [hk] at h
  revert h
  refine transact_elim (P := fun r => r = .next t → t.trace = _) (fun _ h => ?_) (fun _ _ h => ?_) (fun _ _ h => ?_)
    (fun b0 b1 b2 b3 _ _ h => ?_)
  · cases h
    cases ht
  · cases h
    cases ht
  · cases h
    rw [hp] at ht
    cases ht
  · obtain ⟨f, hf⟩ | ⟨u, hu, htrace, -⟩ := hv (beWord b0 b1 b2 b3)
    · cases hf.symm.trans h
    · cases hu.symm.trans h
      exact htrace

/-- Settles O35: of the four kinds of step only a reset and a step of the sequencer's own lead to `IDLE`. -/
theorem sessionEndsByExitWrite : Obligations.SessionEndsByExitWrite := by
  unfold Obligations.SessionEndsByExitWrite
  intro s t hp h ht
  have hne : s.phase ≠ .idle := by
    rintro hidle
    simp [hidle] at hp
  rcases step_cases h with ⟨landed, rest, hi, -⟩ | ⟨rest, hadv⟩ | ⟨-, -, -, hidle, -⟩ | ⟨_, _, _, _, _, rfl, -⟩
  · exact .inl ⟨landed, rest, hi⟩
  · have hexit : s.phase = .ldExit := by
      rcases advance_effect (s := { s with inputs := rest }) (wf_of_step_next h).1 hadv with ⟨-, -, he⟩ | ⟨-, rfl⟩
      · exact phase_eq_ldExit hp (ht ▸ he.phase.resolve_left fun hsame => hne (hsame.symm.trans ht))
      · exact absurd ht hne
    exact .inr ⟨hexit, trace_of_ldExit_to_idle (s := { s with inputs := rest }) hexit hadv ht⟩
  · exact absurd hidle hne
  · exact absurd ht hne

end Sys2Proof.Machine
end

section
/-! PROOFS. The whole of LOAD (O36): the session start, the chunks by induction on the list of their polls, the completion
with the exit write, and the run from its offer. -/

namespace Sys2Proof.Machine

open Sys2Proof

variable {s t : State} {room last : Word} {n r d i : Nat} {full waits : List Word}
  {polls : List (List Word × Word)} {more : List BusEvent}

/-! ### One chunk -/

/-- `s` is in phase `p` of the chunk at `n`, none of its polls counted and `r` free bytes drawn. -/
structure InChunk (p : Phase) (n r : Nat) (s : State) : Prop where
  phase : s.phase = p
  n : s.work.n = some n
  pcCnt : s.work.pcCnt = some 0
  draws : s.draws = r

/-- The control word of the chunk at `n` of `len` bytes, as an event (R165). -/
def controlWrite (c : Config) (len n : Nat) : BusEvent :=
  .write (ldrFifoR0 c) (ctrlWord c (chunkLen len n) (lastFlag c len n))

/-- Its data word, `r` free bytes drawn before it, as an event (R167). -/
def dataWrite (c : Config) (image : List Byte) (len n r : Nat) : BusEvent :=
  .write (ldrFifoR1 c) (dataWord image len n r)

/-- The FIFO poll of a chunk that finds room (R168). -/
theorem run_room (hs : s.RunsAlone) (hp : s.phase = .ldPollf) (hn : s.work.n = some n) (hlt : n < imageLen s)
    (hroom : fifoIsFull s.cfg room = false) (hv : s.device.peek = Response.ofWord room) :
    ∃ t, Streamed 1 [.read (ldrFifoCsr s.cfg) room] s t ∧ InChunk .ldCtl n s.draws t :=
  ⟨_, hs.streamed_one _ (State.current_of_phase hp) (exec_load_ldPollf_room hs.wf hv hp hn hlt hroom)
    ⟨rfl, rfl, rfl, rfl, And.right⟩ rfl rfl rfl, rfl, hn, rfl, rfl⟩

/-- Its control word (R165). -/
theorem run_controlWrite (hs : s.RunsAlone) (hin : InChunk .ldCtl n r s) (hd : s.device.peek.completes) :
    ∃ t, Streamed 1 [controlWrite s.cfg (imageLen s) n] s t ∧ InChunk .ldData n r t :=
  ⟨_, hs.streamed_one _ (State.current_of_phase hin.phase) (exec_load_ldCtl hs.wf hin.phase hin.n hd)
    ⟨rfl, rfl, rfl, rfl, And.right⟩ rfl rfl rfl, rfl, hin.n, hin.pcCnt, hin.draws⟩

/-- Its data word, after which `n` has advanced by 4 (R167, R169). -/
theorem run_dataWrite (hs : s.RunsAlone) (hin : InChunk .ldData n r s) (hd : s.device.peek.completes) :
    ∃ t, Streamed 1 [dataWrite s.cfg s.image (imageLen s) n r] s t ∧ InChunk .ldPollf (n + 4) (r + 4) t := by
  obtain ⟨hp, hn, hcnt, rfl⟩ := hin
  exact ⟨_, hs.streamed_one _ (State.current_of_phase hp) (exec_load_ldData hs.wf hp hn hd)
    ⟨rfl, rfl, rfl, rfl, And.right⟩ rfl rfl rfl, rfl, rfl, hcnt, rfl⟩

/-- The polls of one chunk: full below the bound, if there is one, then room (R168, R173). -/
structure Drains (c : Config) (p : List Word × Word) : Prop where
  full : ∀ v ∈ p.1, fifoIsFull c v = true
  room : fifoIsFull c p.2 = false
  limit : ∀ m, c.pollLimit = some m → p.1.length < m

/-- The events of chunk `i` as its phases issue them are those R176 gives. -/
theorem chunkTrace_eq (c : Config) (image : List Byte) {len : Nat} (hi : i < chunkCount len) :
    chunkTrace c image len d i full room = full.map (.read (ldrFifoCsr c)) ++
      ([.read (ldrFifoCsr c) room] ++ ([controlWrite c len (4 * i)] ++ [dataWrite c image len (4 * i) (d + 4 * i)])) := by
  rw [chunkTrace, controlWrite, ← lastFlag_eq_chunkIsLast c hi]
  rfl

/-- Chunk `i` with its polls (R176). -/
theorem run_chunk (hs : s.RunsAlone) (hin : InChunk .ldPollf (4 * i) (d + 4 * i) s) (hi : i < chunkCount (imageLen s))
    (hdrain : Drains s.cfg (full, room))
    (hg : s.device.gives (chunkTrace s.cfg s.image (imageLen s) d i full room ++ more)) :
    ∃ t, Streamed (full.length + 3) (chunkTrace s.cfg s.image (imageLen s) d i full room) s t ∧
      InChunk .ldPollf (4 * (i + 1)) (d + 4 * (i + 1)) t := by
  have hlt : 4 * i < imageLen s := by unfold chunkCount at hi; omega
  rw [chunkTrace_eq s.cfg s.image hi]
  simp only [chunkTrace_eq s.cfg s.image hi, List.append_assoc] at hg
  obtain ⟨t, ht, hw⟩ := run_polls hs (fun v hv => .inl ⟨hin.phase, rfl, hdrain.full v hv, _, hin.n, hlt⟩) hin.pcCnt
    (fun m hm => (Nat.zero_add _).symm ▸ hdrain.limit m hm) hg
  have hgt := ht.issued.gives hg
  obtain ⟨u, hu, hinu⟩ := run_room (ht.runsAlone hs) (hw.phase.trans hin.phase) (hw.n.trans hin.n) (by rwa [ht.imageLen])
    (by rw [ht.issued.cfg]; exact hdrain.room) hgt.1
  rw [ht.issued.cfg] at hu
  rw [hw.draws, hin.draws] at hinu
  have hsu := ht.trans hu
  have hgu := hu.issued.gives hgt
  obtain ⟨x, hx, hinx⟩ := run_controlWrite (hsu.runsAlone hs) hinu hgu.1
  rw [hsu.issued.cfg, hsu.imageLen] at hx
  have hsx := hsu.trans hx
  obtain ⟨y, hy, hiny⟩ := run_dataWrite (hsx.runsAlone hs) hinx (hx.issued.gives hgu).1
  rw [hsx.issued.cfg, hsx.image, hsx.imageLen] at hy
  have hall := hsx.trans hy
  rw [List.append_assoc, List.append_assoc] at hall
  exact ⟨y, hall, hiny⟩

/-- The chunks from `i` to the last (R169, R176). -/
theorem run_chunks (hs : s.RunsAlone) (hin : InChunk .ldPollf (4 * i) (d + 4 * i) s)
    (hlen : i + polls.length = chunkCount (imageLen s)) (hdrain : ∀ p ∈ polls, Drains s.cfg p)
    (hg : s.device.gives (chunksTrace s.cfg s.image (imageLen s) d i polls ++ more)) :
    ∃ t, Streamed (3 * polls.length + (polls.map (fun p => p.1.length)).sum)
      (chunksTrace s.cfg s.image (imageLen s) d i polls) s t ∧
      ∃ n r, imageLen s ≤ n ∧ InChunk .ldPollf n r t := by
  induction polls generalizing s i with
  | nil =>
    refine ⟨s, .refl s, _, _, ?_, hin⟩
    rw [List.length_nil, chunkCount] at hlen
    omega
  | cons p rest ih =>
    rw [List.length_cons] at hlen
    rw [chunksTrace, List.append_assoc] at hg
    obtain ⟨t, ht, hin'⟩ := run_chunk hs hin (by omega) (hdrain p List.mem_cons_self) hg
    have hg' := ht.issued.gives hg
    rw [← ht.issued.cfg, ← ht.image, ← ht.imageLen] at hg'
    obtain ⟨u, hu, hend⟩ := ih (ht.runsAlone hs) hin' (by rw [ht.imageLen]; omega)
      (fun q hq => ht.issued.cfg ▸ hdrain q (List.mem_cons_of_mem p hq)) hg'
    rw [ht.issued.cfg, ht.image, ht.imageLen] at hu
    rw [ht.imageLen] at hend
    have hsteps : 3 * (p :: rest).length + ((p :: rest).map (fun p => p.1.length)).sum =
        p.1.length + 3 + (3 * rest.length + (rest.map (fun p => p.1.length)).sum) := by
      simp only [List.length_cons, List.map_cons, List.sum_cons]
      omega
    rw [hsteps]
    exact ⟨u, ht.trans hu, hend⟩

/-! ### The start and the end of a session -/

/-- The software reset and the start (R163). -/
theorem run_start (hs : s.RunsAlone) (hp : s.phase = .ldSwrst)
    (hg : s.device.gives ([.write (ldrCsr s.cfg) (wSwrst s.cfg), .write (ldrCsr s.cfg) (wStart s.cfg)] ++ more)) :
    ∃ t, Streamed 2 [.write (ldrCsr s.cfg) (wSwrst s.cfg), .write (ldrCsr s.cfg) (wStart s.cfg)] s t ∧
      InChunk .ldPollf 0 s.draws t := by
  obtain ⟨hswrst, hstart, -⟩ := hg
  have h1 := hs.streamed_one [.write (ldrCsr s.cfg) (wSwrst s.cfg)] (State.current_of_phase hp)
    (exec_load_ldSwrst hs.wf hp hswrst) ⟨rfl, rfl, rfl, rfl, And.right⟩ rfl rfl rfl
  have hs1 := h1.runsAlone hs
  have h2 := hs1.streamed_one [.write (ldrCsr s.cfg) (wStart s.cfg)] (State.current_of_phase rfl)
    (exec_load_ldStart hs1.wf rfl hstart) ⟨rfl, rfl, rfl, rfl, And.right⟩ rfl rfl rfl
  exact ⟨_, h1.trans h2, rfl, rfl, rfl, rfl⟩

/-- All chunks pushed: the completion polls, then the done read (R169 to R171). -/
theorem run_completion (hs : s.RunsAlone) (hin : InChunk .ldPollf n r s) (hle : imageLen s ≤ n)
    (hwaits : ∀ v ∈ waits, isDone s.cfg v = false) (hlast : isDone s.cfg last = true)
    (hlim : ∀ m, s.cfg.pollLimit = some m → waits.length < m)
    (hg : s.device.gives (waits.map (.read (ldrCsr s.cfg)) ++ [.read (ldrCsr s.cfg) last] ++ more)) :
    ∃ t, Streamed (1 + (waits.length + 1)) (waits.map (.read (ldrCsr s.cfg)) ++ [.read (ldrCsr s.cfg) last]) s t ∧
      t.phase = .ldExit ∧ t.work.res = some (sessionOutcome s.cfg last) := by
  rw [List.append_assoc] at hg
  have hstreamed := hs.streamed_one [] (State.current_of_phase hin.phase)
    (exec_load_ldPollf_streamed hin.phase hin.n hle) ⟨rfl, rfl, rfl, rfl, id⟩ rfl rfl rfl
  obtain ⟨t, ht, hw⟩ := run_polls (cnt := 0) (hstreamed.runsAlone hs) (fun v hv => .inr ⟨rfl, rfl, hwaits v hv⟩) rfl
    (fun m hm => (Nat.zero_add _).symm ▸ hlim m hm) hg
  have hst := ht.runsAlone (hstreamed.runsAlone hs)
  have hcfg : t.cfg = s.cfg := ht.issued.cfg
  have hdone := hst.streamed_one [.read (ldrCsr t.cfg) last] (State.current_of_phase hw.phase)
    (exec_load_ldPolld_done hst.wf (ht.issued.gives hg).1 hw.phase (by rwa [hcfg])) ⟨rfl, rfl, rfl, rfl, And.right⟩ rfl
    rfl rfl
  rw [hcfg] at hdone
  exact ⟨_, hstreamed.trans (ht.trans hdone), rfl, rfl⟩

/-- The exit write ends LOAD with `res` (R172). -/
theorem run_exit {res : CmdOutcome} (hs : s.RunsAlone) (hp : s.phase = .ldExit) (hres : s.work.res = some res)
    (hd : s.device.peek.completes) :
    ∃ t, run 1 s = .next t ∧
      CommandEnd [.write (ldrCsr s.cfg) (wExit s.cfg)] { s.status with outcome := res, busy := false } s t :=
  ⟨_, hs.run_one (State.current_of_phase hp) (exec_load_ldExit_done hs.wf hp hres hd),
    ⟨rfl, rfl, rfl, rfl, And.right⟩, rfl, rfl⟩

/-! ### The whole of LOAD -/

/-- The transactions of a session (R176), from the software reset on. -/
def sessionTrace (c : Config) (image : List Byte) (len d : Nat) (polls : List (List Word × Word)) (waits : List Word)
    (last : Word) : List BusEvent :=
  [.write (ldrCsr c) (wSwrst c), .write (ldrCsr c) (wStart c)] ++ (chunksTrace c image len d 0 polls ++
    (waits.map (.read (ldrCsr c)) ++ [.read (ldrCsr c) last] ++ [.write (ldrCsr c) (wExit c)]))

/-- The whole trace of R176: the trigger writes, the identifier read, the session. -/
theorem loadTrace_eq (c : Config) (image : List Byte) (len d : Nat) :
    loadTrace c image len d polls waits last =
      unlockTrace c ++ ([.read (ldrIdr c) c.idWord] ++ sessionTrace c image len d polls waits last) := by
  simp only [loadTrace, sessionTrace, List.append_assoc]
  rfl

/-- A session that the host leaves alone, from the software reset to the exit write (R176). -/
theorem run_session (hs : s.RunsAlone) (hp : s.phase = .ldSwrst) (hlen : polls.length = chunkCount (imageLen s))
    (hdrain : ∀ p ∈ polls, Drains s.cfg p) (hwaits : ∀ v ∈ waits, isDone s.cfg v = false)
    (hlast : isDone s.cfg last = true) (hlim : ∀ m, s.cfg.pollLimit = some m → waits.length < m)
    (hg : s.device.gives (sessionTrace s.cfg s.image (imageLen s) s.draws polls waits last)) :
    ∃ t, run (5 + 3 * polls.length + (polls.map (fun p => p.1.length)).sum + waits.length) s = .next t ∧
      CommandEnd (sessionTrace s.cfg s.image (imageLen s) s.draws polls waits last)
        { s.status with outcome := sessionOutcome s.cfg last, busy := false } s t := by
  obtain ⟨t, ht, hint⟩ := run_start hs hp hg
  have hgt := ht.issued.gives hg
  obtain ⟨u, hu, n, r, hle, hinu⟩ := run_chunks (i := 0) (d := s.draws) (ht.runsAlone hs) hint
    (by rw [Nat.zero_add, hlen, ht.imageLen]) (fun p hp => ht.issued.cfg ▸ hdrain p hp)
    (by rwa [ht.issued.cfg, ht.image, ht.imageLen])
  rw [ht.issued.cfg, ht.image, ht.imageLen] at hu
  have hsu := ht.trans hu
  have hgu := hu.issued.gives hgt
  have hcfgu : u.cfg = s.cfg := hsu.issued.cfg
  obtain ⟨x, hx, hpx, hresx⟩ := run_completion (hsu.runsAlone hs) hinu (by rwa [hsu.imageLen, ← ht.imageLen])
    (by rwa [hcfgu]) (by rwa [hcfgu]) (by rwa [hcfgu]) (by rwa [hcfgu])
  rw [hcfgu] at hx hresx
  have hsx := hsu.trans hx
  obtain ⟨y, hrun, hy⟩ := run_exit (hsx.runsAlone hs) hpx hresx (hx.issued.gives hgu).1
  rw [hsx.issued.cfg] at hy
  have hsteps : 5 + 3 * polls.length + (polls.map (fun p => p.1.length)).sum + waits.length =
      2 + (3 * polls.length + (polls.map (fun p => p.1.length)).sum) + (1 + (waits.length + 1)) + 1 := by omega
  refine ⟨y, ?_, ?_, hy.phase, ?_⟩
  · rw [hsteps]
    exact (run_add hsx.run 1).trans hrun
  · have hall := hsx.issued.trans hy.issued
    rwa [List.append_assoc, List.append_assoc] at hall
  · rw [hy.status, hsx.status]

/-- Settles O36: from the offer to the detection, which matches, then the session. -/
theorem loadRun : Obligations.LoadRun := by
  unfold Obligations.LoadRun
  intro s cw polls waits last hc hp hm hvalid himg hi hd hlen hpolls hwaits hlast hlim hg
  rw [loadTrace_eq] at hg ⊢
  have hdrain : ∀ p ∈ polls, Drains s.cfg p := fun p hp =>
    have ⟨hfull, hroom⟩ := hpolls p hp
    ⟨fun v hv => flagSet_iff.mpr (hfull v hv), flagSet_eq_false_iff.mpr hroom, fun m hm => (hlim m hm).1 p hp⟩
  obtain ⟨t, hrun, ht, hpt, hdraws⟩ := run_offered_load hc hp hm hvalid himg hi hd hg
  have hcfg : t.cfg = s.cfg := ht.issued.cfg
  have hst : t.RunsAlone := ht.runsAlone ⟨hc, .inl rfl, rfl⟩
  have hgt := ht.issued.gives hg
  have hid : t.device.peek = Response.ofWord t.cfg.idWord := by
    rw [hcfg]
    exact hgt.1
  obtain ⟨u, hrunu, hissued, hpu, hstatus, hoperands, himage, hdrawsu⟩ := run_detection hst hpt hid
  rw [hcfg] at hissued
  have hcfgu : u.cfg = s.cfg := hissued.cfg.trans hcfg
  have himageu : u.image = s.image := himage.trans ht.image
  have hlenu : imageLen u = s.port.imgLen.toNat := by
    rw [imageLen, hoperands, ht.operands]
    rfl
  have hsu : u.RunsAlone := ⟨by rwa [hcfgu], hissued.inputs ▸ hst.inputs, by rw [hstatus]; exact hst.busy⟩
  have hgu := hissued.gives hgt
  obtain ⟨x, hrunx, hx⟩ := run_session hsu hpu (hlenu ▸ hlen) (hcfgu ▸ hdrain)
    (fun v hv => flagSet_eq_false_iff.mpr (by rw [hcfgu]; exact hwaits v hv))
    (flagSet_iff.mpr (by rwa [hcfgu])) (fun m hm => (hlim m (hcfgu ▸ hm)).2)
    (by rwa [hcfgu, himageu, hlenu, hdrawsu, hdraws])
  rw [hcfgu, himageu, hlenu, hdrawsu, hdraws] at hx
  have hsteps : 16 + 3 * polls.length + (polls.map (fun p => p.1.length)).sum + waits.length =
      10 + (1 + (5 + 3 * polls.length + (polls.map (fun p => p.1.length)).sum + waits.length)) := by omega
  refine ⟨x, ?_, hx.phase, ((ht.issued.trans hissued).trans hx.issued).trace, ?_⟩
  · rw [hsteps, run_add hrun, run_add hrunu, hrunx]
  · rw [hx.status, hstatus, ht.status, sessionOutcome_eq]
    rfl

end Sys2Proof.Machine
end

section
/-! PROOFS. The phases of ACTIVATE (O40, O41, O42): its seven writes as one equation, the rest of the phase of a write, and
the read-back. -/

namespace Sys2Proof.Machine

open Sys2Proof

variable {s : State} {w : ActWrite} {k : Nat} {tup : Tuple}

/-! ### The writes -/

/-- The byte each write of ACTIVATE carries (R201 to R207): `k` is the relocation index, `tup` the tuple. -/
def actByte (c : Config) (o : Operands) (k : Nat) (tup : Tuple) : ActWrite → Byte
  | .rst => c.resetCore
  | .dis => c.enableCore
  | .wb => c.wb32
  | .vec => o.cfgVec
  | .lvl => o.cfgLvl
  | .ader => tup.get k
  | .en => c.enableCore

/-- What the phase of each write asks for: the reset write a mapped window (R201), the relocation writes their index and
the tuple (R206). -/
structure WriteReady (w : ActWrite) (k : Nat) (tup : Tuple) (s : State) : Prop where
  phase : s.phase = w.phase
  index : k < 4
  mapped : w = .rst → s.operands.winValid = true
  relocation : w = .ader → s.work.k = some k ∧ s.work.tup = some tup

/-- A phase of ACTIVATE that writes is that write, at the write's offset and with its byte. -/
theorem exec_activate_of_writeReady (h : WriteReady w k tup s) :
    exec .activate s = actWrite w (actOff s.cfg k w) (actByte s.cfg s.operands k tup w) s := by
  obtain ⟨hp, hlt, hmapped, hrel⟩ := h
  cases w <;> simp only [exec, execActivate, hp, ActWrite.phase]
  case rst => exact withWindow_mapped (hmapped rfl)
  case ader =>
    obtain ⟨hk, htup⟩ := hrel rfl
    rw [phaseAcAder, hk, need_some, htup, need_some, if_pos hlt]
    rfl
  all_goals rfl

/-- `s` after write `w` alone, its byte `b` on the window (R121, R200). -/
def State.actWrote (w : ActWrite) (k : Nat) (b : Byte) (s : State) : State :=
  s.answered.wrote (slot (actOff s.cfg k w)) (csrWord b)

/-- A write of ACTIVATE that the device accepts: `AC_RB` or the rest of the phase follows (R200, R208). -/
theorem exec_activate_wrote (hc : s.cfg.wf = true) (h : WriteReady w k tup s) (hd : s.device.peek.completes) :
    exec .activate s =
      if s.cfg.readback then
        .next (((s.actWrote w k (actByte s.cfg s.operands k tup w)).setRb w).goto .acRb)
      else actRest w (s.actWrote w k (actByte s.cfg s.operands k tup w)) := by
  obtain ⟨b0, b1, b2, b3, hd⟩ := hd
  rw [exec_activate_of_writeReady h, actWrite, csrWrite, memWrite_done (actOff_inWindow hc h.index w) hd]
  rfl

/-! ### The phases before the relocation -/

/-- The settle delay: no transaction (R201). -/
theorem exec_activate_acWait (hp : s.phase = .acWait) :
    exec .activate s = .next ((s.record (.delay s.cfg.settle)).goto .acDis) := by
  simp only [exec, execActivate, hp]
  rfl

/-- No window mapped: no transaction (R201, R237). -/
theorem exec_activate_unmapped (hp : s.phase = .acRst) (hw : s.operands.winValid = false) :
    exec .activate s = .next (s.raiseFault .windowUnmapped 0x6#32) := by
  simp only [exec, execActivate, hp]
  exact withWindow_unmapped hw

/-- A write whose phase then only goes on to `p`. -/
theorem exec_activate_goto {p : Phase} (hrest : ∀ t, actRest w t = .next (t.goto p)) (hc : s.cfg.wf = true)
    (hd : s.device.peek.completes) (h : WriteReady w k tup s) :
    exec .activate s = .next { s.actWrote w k (actByte s.cfg s.operands k tup w) with
      work := if s.cfg.readback then { s.work with rb := some w } else s.work
      phase := if s.cfg.readback then .acRb else p } := by
  rw [exec_activate_wrote hc h hd, hrest]
  cases s.cfg.readback <;> rfl

/-- The other writes need no index and no tuple. -/
theorem writeReady_of_ne_ader (hp : s.phase = w.phase) (hw : w ≠ .ader)
    (hmapped : w = .rst → s.operands.winValid = true) : WriteReady w 0 (reloc s.cfg s.operands.cfgAddr) s :=
  ⟨hp, by decide, hmapped, fun h => absurd h hw⟩

/-- Settles O40: the fault, the delay, and the first four writes. -/
theorem activateSetupWrites : Obligations.ActivateSetupWrites := by
  unfold Obligations.ActivateSetupWrites
  refine fun s hc => ⟨exec_activate_unmapped, exec_activate_acWait, fun hd w off b p hmem hw => ?_⟩
  have hready (hp : s.phase = w.phase) (hne : w ≠ .ader) : WriteReady w 0 (reloc s.cfg s.operands.cfgAddr) s :=
    writeReady_of_ne_ader hp hne fun hrst => hw (by rw [hp, hrst]; rfl)
  simp only [List.mem_cons, List.not_mem_nil, or_false, Prod.mk.injEq] at hmem
  obtain ⟨rfl, hp, rfl, rfl, rfl⟩ | ⟨rfl, hp, rfl, rfl, rfl⟩ | ⟨rfl, hp, rfl, rfl, rfl⟩ | ⟨rfl, hp, rfl, rfl, rfl⟩ := hmem
  all_goals exact exec_activate_goto (fun _ => rfl) hc hd (hready hp (by decide))

/-! ### The relocation and the enable write -/

/-- After a relocation write, the next one or, after the fourth, the enable write (R206). -/
theorem actRest_ader (hk : s.work.k = some k) (hlt : k < 4) :
    actRest .ader s = .next ((s.setK (k + 1)).goto (if k = 3 then .acEn else .acAder)) := by
  rw [actRest, hk, need_some]
  by_cases h3 : k = 3
  · rw [if_neg (by omega), if_pos h3]
  · rw [if_pos (by omega), if_neg h3]

/-- Settles O41: the level write, a relocation write and the enable write, each by the two settings of `P_READBACK`. -/
theorem activateRelocationWrites : Obligations.ActivateRelocationWrites := by
  unfold Obligations.ActivateRelocationWrites
  refine fun s hc hd => ⟨fun hp => ?_, fun hp k tup hk htup hlt => ?_, fun hp => ?_⟩
  · rw [exec_activate_wrote hc (writeReady_of_ne_ader (w := .lvl) hp (by decide) nofun) hd]
    cases s.cfg.readback <;> rfl
  · have hready : WriteReady .ader k tup s := ⟨hp, hlt, nofun, fun _ => ⟨hk, htup⟩⟩
    rw [exec_activate_wrote hc hready hd, actRest_ader (s := s.actWrote .ader k _) hk hlt]
    cases s.cfg.readback <;> rfl
  · rw [exec_activate_wrote hc (writeReady_of_ne_ader (w := .en) hp (by decide) nofun) hd]
    cases s.cfg.readback <;> rfl

/-! ### The read-back -/

/-- The offset of a write other than a relocation write does not depend on the index. -/
theorem actOff_congr (c : Config) {k k' : Nat} (h : w = .ader → k = k') : actOff c k w = actOff c k' w := by
  cases w
  case ader => rw [h rfl]
  all_goals rfl

/-- `s` after the read-back of write `w` showed `v` (R208). -/
def State.actRead (w : ActWrite) (k : Nat) (v : Word) (s : State) : State :=
  (s.answered.record (.read (slot (actOff s.cfg k w)) v)).setRd v

/-- The read-back reads the slot that its write went to, and the rest of that write's phase follows (R208). -/
theorem exec_activate_readBack {v : Word} (hc : s.cfg.wf = true) (hp : s.phase = .acRb) (hrb : s.work.rb = some w)
    (hk : w = .ader → s.work.k = some k) (hlt : k < 4) (hv : s.device.peek = Response.ofWord v) :
    exec .activate s = actRest w (s.actRead w k v) := by
  have hread : exec .activate s = csrRead (actOff s.cfg k w) (fun _ s => actRest w s) s := by
    simp only [exec, execActivate, hp]
    rw [phaseAcRb, hrb, need_some]
    cases w
    case ader => rw [hk rfl]; rfl
    all_goals rfl
  rw [hread, csrRead, memRead_done (actOff_inWindow hc hlt w) hv, beWord_beByte]
  rfl

/-- The read that is pending in `AC_RB` (R208). -/
theorem pendingAddr_readBack (hp : s.phase = .acRb) (hrb : s.work.rb = some w) (hk : w = .ader → s.work.k = some k) :
    s.pendingAddr = some (slot (actOff s.cfg k w)) := by
  simp only [State.pendingAddr, State.pending, hp, State.pendingReadBack, hrb]
  cases w
  case ader => rw [hk rfl]; rfl
  all_goals rfl

/-- In `AC_RB` after a relocation write the index is that of the write (R206). -/
theorem State.Inv.readBack_index (h : s.Inv) (hp : s.phase = .acRb) (hrb : s.work.rb = some w) :
    ∃ k < 4, w = .ader → s.work.k = some k := by
  obtain ⟨-, w', hw', hrel⟩ := (State.workOk_acRb hp).mp h.work
  obtain rfl : w = w' := Option.some_inj.mp (hrb.symm.trans hw')
  by_cases hader : w = .ader
  · obtain ⟨k, hk, hlt, -⟩ := hrel hader
    exact ⟨k, hlt, fun _ => hk⟩
  · exact ⟨0, by decide, fun e => absurd e hader⟩

/-- Settles O42: the read, then the rest of the phase of each of the seven writes. -/
theorem readBackHasNoEffect : Obligations.ReadBackHasNoEffect := by
  unfold Obligations.ReadBackHasNoEffect
  intro s w v hc hi hp hrb hv
  obtain ⟨k, hlt, hk⟩ := hi.readBack_index hp hrb
  refine ⟨_, pendingAddr_readBack hp hrb hk, fun k' hk' => ?_, ?_⟩
  · rw [actOff_congr s.cfg (k' := k') fun h => Option.some_inj.mp ((hk h).symm.trans (hk' h))]
    cases w <;> rfl
  · rw [exec_activate_readBack hc hp hrb hk hlt hv]
    cases w
    case ader =>
      rw [actRest_ader (s := s.actRead .ader k v) (hk rfl) hlt, hk rfl]
      simp only [Option.some_inj]
      rfl
    all_goals rfl

end Sys2Proof.Machine
end

section
/-! PROOFS. The whole of ACTIVATE (O43): its ten writes by number, each with its read-back, by induction on how many of
them are done. A run of ACTIVATE in which the host does nothing is a `Streamed` one, which names no command. -/

namespace Sys2Proof.Machine

open Sys2Proof

variable {s t u : State} {w : ActWrite} {i k : Nat} {tup : Tuple} {v : Word} {seen : Nat → Word}
  {es more : List BusEvent}

/-! ### One write with its read-back -/

/-- The steps a write of ACTIVATE takes: two with its read-back, one without (R208). -/
def writeSteps (c : Config) : Nat := if c.readback then 2 else 1

/-- The phases that write are phases of ACTIVATE (R22). -/
theorem ActWrite.phase_command (w : ActWrite) (b : Byte) : w.phase.command b = some .activate := by
  cases w <;> rfl

/-- A step of ACTIVATE, the host only waiting, is the step of its phase. -/
theorem State.RunsAlone.step_eq_activate (hs : s.RunsAlone) {p : Phase} (hp : s.phase = p)
    (hcommand : p.command s.operands.argByte = some .activate) : step s = exec .activate s :=
  hs.step_eq_advance.trans (advance_of_current ((State.current_of_phase hp).trans hcommand))

/-- A run of one step is that step, a fault or a refusal included. -/
theorem run_one (s : State) : run 1 s = step s := by
  cases h : step s with
  | next t => exact run_succ_of_step h 0
  | fault f | refused r =>
    simp only [run, Host.Core.run]
    rw [show Sys2Proof.core.step s = _ from h]
    rfl

/-- `u` is `s` after the sequencer alone issued `es`, the rest of the phase of the write among them still to come: only
working registers that the rest does not read, and the phase, may have changed besides. -/
structure Written (es : List BusEvent) (s u : State) : Prop where
  issued : Issued es s u
  status : u.status = s.status
  operands : u.operands = s.operands
  image : u.image = s.image
  k : u.work.k = s.work.k
  tup : u.work.tup = s.work.tup

/-- A write of ACTIVATE and its read-back, if there is one, then the rest of its phase (R200, R208). -/
theorem run_write (hs : s.RunsAlone) (h : WriteReady w k tup s)
    (hg : s.device.gives (actEvents s.cfg (actOff s.cfg k w) (actByte s.cfg s.operands k tup w) v ++ more)) :
    ∃ u, run (writeSteps s.cfg) s = actRest w u ∧
      Written (actEvents s.cfg (actOff s.cfg k w) (actByte s.cfg s.operands k tup w) v) s u := by
  have hstep := hs.step_eq_activate h.phase (w.phase_command _)
  rw [exec_activate_wrote hs.wf h hg.1] at hstep
  cases hrb : s.cfg.readback
  · simp only [hrb, Bool.false_eq_true, if_false] at hstep
    simp only [writeSteps, actEvents, hrb, Bool.false_eq_true, if_false]
    exact ⟨_, (run_one s).trans hstep, ⟨rfl, rfl, rfl, rfl, And.right⟩, rfl, rfl, rfl, rfl, rfl⟩
  · simp only [hrb, if_true] at hstep
    simp only [actEvents, hrb, if_true] at hg
    simp only [writeSteps, actEvents, hrb, if_true]
    have halone : (((s.actWrote w k (actByte s.cfg s.operands k tup w)).setRb w).goto .acRb).RunsAlone :=
      ⟨hs.wf, hs.inputs, hs.busy⟩
    have hread := (halone.step_eq_activate rfl rfl).trans <|
      exec_activate_readBack hs.wf rfl rfl (fun hader => (h.relocation hader).1) h.index hg.2.1
    exact ⟨_, (run_succ_of_step hstep 1).trans ((run_one _).trans hread),
      ⟨rfl, rfl, rfl, rfl, fun hgives => hgives.2.2⟩, rfl, rfl, rfl, rfl, rfl⟩

/-! ### The ten writes by number -/

/-- Write `i` of ACTIVATE, the reset write being number 0 and the enable write number 9 (R200, R209). -/
def writeAt : Nat → ActWrite
  | 0 => .rst
  | 1 => .dis
  | 2 => .wb
  | 3 => .vec
  | 4 => .lvl
  | 5 | 6 | 7 | 8 => .ader
  | _ => .en

/-- The events of write `i` (R209); from write 5 on, `i - 5` is the relocation index (R206). -/
def writeEvents (c : Config) (o : Operands) (seen : Nat → Word) (i : Nat) : List BusEvent :=
  actEvents c (actOff c (i - 5) (writeAt i)) (actByte c o (i - 5) (reloc c o.cfgAddr) (writeAt i)) (seen i)

/-- The trace of R209 is the ten writes in order, with the delay after the first. -/
theorem activateTrace_eq (c : Config) (o : Operands) (seen : Nat → Word) :
    activateTrace c o.cfgAddr o.cfgVec o.cfgLvl seen =
      (writeEvents c o seen 0 ++ [.delay c.settle]) ++
        ((List.range 8).flatMap (fun j => writeEvents c o seen (j + 1)) ++ writeEvents c o seen 9) := by
  have hrange : List.range 8 = [0, 1, 2, 3, 4, 5, 6, 7] := rfl
  simp only [activateTrace, List.append_assoc, hrange, List.flatMap_cons, List.flatMap_nil, List.append_nil]
  rfl

/-- The relocation index and the tuple are those of write `i`, if it is a relocation write. -/
def State.relocatesAt (i : Nat) (s : State) : Prop :=
  writeAt i = .ader → s.work.k = some (i - 5) ∧ s.work.tup = some (reloc s.cfg s.operands.cfgAddr)

/-- `s` is about to issue write `i`. -/
structure AtWrite (i : Nat) (s : State) : Prop where
  phase : s.phase = (writeAt i).phase
  relocation : s.relocatesAt i

/-- From write 1 on nothing is asked of the window: the reset write alone checks it (R201). -/
theorem AtWrite.ready (h : AtWrite i s) (h1 : 1 ≤ i) (h8 : i ≤ 8) :
    WriteReady (writeAt i) (i - 5) (reloc s.cfg s.operands.cfgAddr) s where
  phase := h.phase
  index := by omega
  mapped hrst := by interval_cases i <;> cases hrst
  relocation := h.relocation

/-- After one of the writes 1 to 8 comes the next one (R200, R206). -/
theorem actRest_atWrite (hu : u.relocatesAt i) (h1 : 1 ≤ i) (h8 : i ≤ 8) :
    ∃ p x, actRest (writeAt i) u = .next { u with phase := p, work := x } ∧
      AtWrite (i + 1) { u with phase := p, work := x } := by
  by_cases hader : writeAt i = .ader
  · obtain ⟨hk, htup⟩ := hu hader
    have h5 : 5 ≤ i := by
      by_contra hlt
      interval_cases i <;> cases hader
    rw [hader, actRest_ader hk (by omega)]
    refine ⟨_, _, rfl, ?_, fun _ => ⟨congrArg some (by omega), htup⟩⟩
    interval_cases i <;> rfl
  · have h4 : i ≤ 4 := by
      by_contra hlt
      interval_cases i <;> exact hader rfl
    obtain rfl | hlt := h4.eq_or_lt
    · exact ⟨_, _, rfl, rfl, fun _ => ⟨rfl, rfl⟩⟩
    · interval_cases i <;> exact ⟨_, _, rfl, rfl, nofun⟩

/-- One of the writes 1 to 8, up to the next one. -/
theorem run_turn (hs : s.RunsAlone) (h : AtWrite i s) (h1 : 1 ≤ i) (h8 : i ≤ 8)
    (hg : s.device.gives (writeEvents s.cfg s.operands seen i ++ more)) :
    ∃ t, Streamed (writeSteps s.cfg) (writeEvents s.cfg s.operands seen i) s t ∧ AtWrite (i + 1) t := by
  obtain ⟨u, hrun, hu⟩ := run_write hs (h.ready h1 h8) hg
  have hrel : u.relocatesAt i := by
    unfold State.relocatesAt
    rw [hu.k, hu.tup, hu.operands, hu.issued.cfg]
    exact h.relocation
  obtain ⟨p, x, hrest, hat⟩ := actRest_atWrite hrel h1 h8
  exact ⟨_, ⟨hrun.trans hrest, ⟨hu.issued.cfg, hu.issued.winMapped, hu.issued.inputs, hu.issued.trace, hu.issued.gives⟩,
    hu.status, hu.operands, hu.image⟩, hat⟩

/-- The first `n` of the writes 1 to 8. -/
theorem run_turns {n : Nat} (hs : s.RunsAlone) (h : AtWrite 1 s) (hn : n ≤ 8)
    (hg : s.device.gives ((List.range n).flatMap (fun j => writeEvents s.cfg s.operands seen (j + 1)) ++ more)) :
    ∃ t, Streamed (n * writeSteps s.cfg) ((List.range n).flatMap fun j => writeEvents s.cfg s.operands seen (j + 1)) s t ∧
      AtWrite (n + 1) t := by
  induction n generalizing more with
  | zero => exact ⟨s, by simpa using Streamed.refl s, h⟩
  | succ n ih =>
    simp only [List.range_succ, List.flatMap_append, List.flatMap_singleton, List.append_assoc] at hg
    obtain ⟨t, ht, hat⟩ := ih (by omega) hg
    have hgt := ht.issued.gives hg
    rw [← ht.issued.cfg, ← ht.operands] at hgt
    obtain ⟨u, hu, hau⟩ := run_turn (ht.runsAlone hs) hat (by omega) hn hgt
    rw [ht.issued.cfg, ht.operands] at hu
    refine ⟨u, ?_, hau⟩
    rw [List.range_succ, List.flatMap_append, List.flatMap_singleton, Nat.succ_mul]
    exact ht.trans hu

/-! ### The first and the last write, and the whole of ACTIVATE -/

/-- The reset write and the settle delay (R201). -/
theorem run_coreReset (hs : s.RunsAlone) (hp : s.phase = .acRst) (hw : s.operands.winValid = true)
    (hg : s.device.gives ((writeEvents s.cfg s.operands seen 0 ++ [.delay s.cfg.settle]) ++ more)) :
    ∃ t, Streamed (writeSteps s.cfg + 1) (writeEvents s.cfg s.operands seen 0 ++ [.delay s.cfg.settle]) s t ∧
      AtWrite 1 t := by
  rw [List.append_assoc] at hg
  obtain ⟨u, hrun, hu⟩ := run_write hs (writeReady_of_ne_ader (w := .rst) hp (by decide) fun _ => hw) hg
  have hreset : Streamed (writeSteps s.cfg) (writeEvents s.cfg s.operands seen 0) s (u.goto .acWait) :=
    ⟨hrun, hu.issued.goto _, hu.status, hu.operands, hu.image⟩
  have hdelay : Streamed 1 [.delay s.cfg.settle] (u.goto .acWait)
      (((u.goto .acWait).record (.delay s.cfg.settle)).goto .acDis) := by
    refine ⟨(run_one _).trans ?_, ⟨rfl, rfl, rfl, rfl, id⟩, rfl, rfl, rfl⟩
    rw [(hreset.runsAlone hs).step_eq_activate rfl rfl, exec_activate_acWait rfl, hreset.issued.cfg]
  exact ⟨_, hreset.trans hdelay, rfl, nofun⟩

/-- The enable write ends ACTIVATE (R207). -/
theorem run_enable (hs : s.RunsAlone) (h : AtWrite 9 s)
    (hg : s.device.gives (writeEvents s.cfg s.operands seen 9)) :
    ∃ t, run (writeSteps s.cfg) s = .next t ∧
      CommandEnd (writeEvents s.cfg s.operands seen 9) { s.status with outcome := .success, busy := false } s t := by
  obtain ⟨u, hrun, hu⟩ := run_write (more := []) hs (writeReady_of_ne_ader (w := .en) h.phase (by decide) nofun)
    (by rwa [List.append_nil])
  exact ⟨_, hrun, hu.issued.finish .success, rfl, by rw [State.finish_status, hu.status]⟩

/-- ACTIVATE with the window mapped, from its acceptance on (R200, R208, R209). -/
theorem run_activate (hs : s.RunsAlone) (hp : s.phase = .acRst) (hw : s.operands.winValid = true)
    (hg : s.device.gives
      (activateTrace s.cfg s.operands.cfgAddr s.operands.cfgVec s.operands.cfgLvl seen)) :
    ∃ t, run (10 * writeSteps s.cfg + 1) s = .next t ∧
      CommandEnd (activateTrace s.cfg s.operands.cfgAddr s.operands.cfgVec s.operands.cfgLvl seen)
        { s.status with outcome := .success, busy := false } s t := by
  rw [activateTrace_eq] at hg ⊢
  obtain ⟨t, ht, hat⟩ := run_coreReset hs hp hw hg
  have hgt := ht.issued.gives hg
  obtain ⟨u, hu, hau⟩ := run_turns (n := 8) (seen := seen) (ht.runsAlone hs) hat (le_refl 8)
    (by rwa [ht.issued.cfg, ht.operands])
  rw [ht.issued.cfg, ht.operands] at hu
  have hsu := ht.trans hu
  have hgu := hu.issued.gives hgt
  obtain ⟨x, hrun, hx⟩ := run_enable (seen := seen) (hsu.runsAlone hs) hau (by rwa [hsu.issued.cfg, hsu.operands])
  rw [hsu.issued.cfg, hsu.operands] at hx
  rw [hsu.issued.cfg] at hrun
  refine ⟨x, ?_, ?_, hx.phase, by rw [hx.status, hsu.status]⟩
  · rw [show 10 * writeSteps s.cfg + 1 = writeSteps s.cfg + 1 + 8 * writeSteps s.cfg + writeSteps s.cfg by omega]
    exact (run_add hsu.run _).trans hrun
  · rw [← List.append_assoc]
    exact hsu.issued.trans hx.issued

/-- Settles O43: the offer, then ACTIVATE from its acceptance on. -/
theorem activateRun : Obligations.ActivateRun := by
  unfold Obligations.ActivateRun
  intro s cw seen hc hp hm hi hd hg
  obtain ⟨t, hrun, ht⟩ := run_activate (s := s.accepted .activate []) ⟨hc, .inl rfl, rfl⟩ rfl hm hg
  have hsteps : (if s.cfg.readback then 22 else 12) = 10 * writeSteps s.cfg + 1 + 1 := by
    unfold writeSteps
    split <;> rfl
  refine ⟨t, ?_, ht.phase, ht.issued.trace, ht.status⟩
  rw [hsteps, run_succ_of_step (step_offer hc hp hi hd)]
  exact hrun

end Sys2Proof.Machine
end

section
/-! PROOFS. A dropped word, `FAULT`, and the device's two other answers (O8, O9, O51): from the inversion of a step and
from the table of pending accesses. -/

namespace Sys2Proof.Machine

open Sys2Proof

variable {s t : State} {a : Nat}

/-- Outside `IDLE` every word is dropped, valid or not (R235). -/
theorem offerWord_of_ne_idle (hp : s.phase ≠ .idle) (cw : Word) : offerWord cw s = .next s.drop :=
  if_neg hp

/-- Settles O8: the drop, and the frame of `OVR` in `StepEffect`, which only an acceptance escapes. -/
theorem busyOfferDropped : Obligations.BusyOfferDropped := by
  unfold Obligations.BusyOfferDropped
  refine ⟨fun s cw rest hc hp hi => ?_, fun s t h hset hclear => ?_⟩
  · rw [step_of_wf hc, stepInput_offer hi]
    exact offerWord_of_ne_idle (s := { s with inputs := rest }) hp cw
  · rcases step_reset_or_effect h with hreset | he
    · exact .inr hreset
    · rcases he.ovr with hkept | hset' | haccept
      · simp [hkept, hset] at hclear
      · simp [hset'] at hclear
      · exact .inl haccept

/-- A command ends in `IDLE` (R272). -/
theorem State.commandEnds.phase {k : Nat} (h : s.commandEnds k t) : t.phase = .idle := by
  obtain ⟨-, -, ⟨hidle, -, -⟩, -⟩ := h
  exact hidle

/-- So does the run of a program (R272). -/
theorem State.programEnded.phase {k : Nat} (h : s.programEnded k) (hrun : run k s = .next t) : t.phase = .idle := by
  obtain ⟨⟨u, hu, -, hidle⟩, -⟩ := h
  cases hrun.symm.trans hu
  exact hidle

/-- `FAULT` has no successor: without a reset the phase stays (R30, R236). -/
theorem StepEffect.phase_of_fault (h : StepEffect s t) (hp : s.phase = .fault) : t.phase = .fault := by
  simpa [hp, Phase.successors] using h.phase

/-- Settles O9: an end is in `IDLE`, and `FAULT` has no successor and keeps the frame of `StepEffect`. -/
theorem faultIsLeftByResetOnly : Obligations.FaultIsLeftByResetOnly := by
  unfold Obligations.FaultIsLeftByResetOnly
  refine ⟨fun s t hp => ⟨fun k hend => ?_, fun k hrun hend => ?_⟩, fun _ _ _ => rfl, fun s t hp h => ?_⟩
  · exact absurd (hp.symm.trans hend.phase) (by decide)
  · exact absurd (hp.symm.trans (hend.phase hrun)) (by decide)
  · refine (step_reset_or_effect h).imp_right fun he => ?_
    obtain ⟨htrace, hwindow, hstatus⟩ := he.stuck hp
    exact ⟨he.phase_of_fault hp, htrace, hwindow, he.faultInfo.resolve_right fun hn => hn.1 hp,
      he.operands.resolve_right (by simp [hp]), hstatus⟩

/-- With an access pending, the sequencer's own step is a transaction at its offset. -/
theorem advance_eq_transact (h : s.pendingAddr = some a) : ∃ k, advance s = transact a k s := by
  obtain ⟨x, hx, rfl⟩ := Option.map_eq_some_iff.mp h
  have hm := advance_matches s
  rw [hx] at hm
  obtain ⟨k, hk, -⟩ := hm
  exact ⟨k, hk⟩

/-- Settles O51: whichever phase it is, the step is one transaction, whose two other answers `transact_error` and
`transact_silent` give. -/
theorem busErrorAndSilence : Obligations.BusErrorAndSilence := by
  unfold Obligations.BusErrorAndSilence
  intro s a hc _ hi ha hw
  obtain ⟨k, hk⟩ := advance_eq_transact ha
  rw [step_of_wf hc, stepInput_nil hi, hk]
  exact ⟨transact_error hw, transact_silent hw⟩

end Sys2Proof.Machine
end

section
/-! PROOFS. What a command in progress never reads (O56): `OVR`, which a dropped word sets (R235), and the host's side
of the operand registers, which a late host write sets (R273). The sequencer's own step commutes with every update of
these two, so the phases are gone through once for both. -/

namespace Sys2Proof.Machine

open Sys2Proof

variable {f : HostPort → HostPort} {g : Bool → Bool} {s : State}

/-- `s` with the host's side of the operand registers and `OVR` replaced, which only an offered word reads or writes. -/
def State.overlay (f : HostPort → HostPort) (g : Bool → Bool) (s : State) : State :=
  { s with port := f s.port, status := { s.status with ovr := g s.status.ovr } }

/-- `r'` is the result `r` with its state overlaid. -/
inductive Overlaid (f : HostPort → HostPort) (g : Bool → Bool) : StepResult → StepResult → Prop where
  | next (t : State) : Overlaid f g (.next t) (.next (t.overlay f g))
  | fault (x : Fault) : Overlaid f g (.fault x) (.fault x)

theorem Overlaid.eq_next {r : StepResult} {t : State} (h : Overlaid f g (.next t) r) : r = .next (t.overlay f g) := by
  cases h; rfl

theorem Overlaid.need {α : Type} {r : WorkReg} {v : Option α} {k k' : α → StepResult}
    (hk : ∀ x, Overlaid f g (k x) (k' x)) : Overlaid f g (need r v k) (need r v k') := by
  cases v with
  | none => exact .fault _
  | some x => exact hk x

theorem Overlaid.ite {p : Prop} [Decidable p] {q r q' r' : StepResult} (hq : Overlaid f g q q')
    (hr : Overlaid f g r r') : Overlaid f g (if p then q else r) (if p then q' else r') := by
  split
  · exact hq
  · exact hr

theorem Overlaid.withWindow {opc : BitVec 4} {k k' : State → StepResult}
    (hk : Overlaid f g (k s) (k' (s.overlay f g))) :
    Overlaid f g (withWindow opc k s) (withWindow opc k' (s.overlay f g)) :=
  .ite hk (.next (s.raiseFault _ _))

/-- The same transaction is issued and gets the same answer. -/
theorem Overlaid.transact {a : Nat} {k k' : Word → State → StepResult}
    (hk : ∀ v, Overlaid f g (k v s.answered) (k' v (s.answered.overlay f g))) :
    Overlaid f g (transact a k s) (transact a k' (s.overlay f g)) := by
  refine transact_elim (P := fun r => Overlaid f g r _) (fun hw => ?_) (fun hw hd => ?_) (fun hw hd => ?_)
    (fun _ _ _ _ hw hd => ?_)
  · rw [transact_outside (s := s.overlay f g) hw]
    exact .next (s.raiseFault _ _)
  · rw [transact_error (s := s.overlay f g) hw hd]
    exact .next ((s.answered.record _).raiseFault _ _)
  · rw [transact_silent (s := s.overlay f g) hw hd]
    exact .next s
  · rw [transact_done (s := s.overlay f g) hw hd]
    exact hk _

theorem Overlaid.memWrite {a : Nat} {v : Word} {k k' : State → StepResult}
    (hk : ∀ t, Overlaid f g (k t) (k' (t.overlay f g))) :
    Overlaid f g (memWrite a v k s) (memWrite a v k' (s.overlay f g)) :=
  .transact fun _ => hk (s.answered.wrote a v)

theorem Overlaid.memRead {a : Nat} {k k' : Word → State → StepResult}
    (hk : ∀ v t, Overlaid f g (k v t) (k' v (t.overlay f g))) :
    Overlaid f g (memRead a k s) (memRead a k' (s.overlay f g)) :=
  .transact fun v => hk v ((s.answered.record (.read a v)).setRd v)

/-! ### The phases -/

theorem unlockTurn_overlaid {done : State → StepResult} (hd : ∀ t, Overlaid f g (done t) (done (t.overlay f g))) :
    Overlaid f g (unlockTurn done s) (unlockTurn done (s.overlay f g)) :=
  .need fun j => .ite (.memWrite fun t => .ite (.next (t.setJ (j + 1))) (hd (t.setJ (j + 1)))) (hd s)

theorem pollAgain_overlaid (s : State) : Overlaid f g (pollAgain s) (pollAgain (s.overlay f g)) :=
  .need fun cnt =>
    .ite (.next (((s.setPcCnt (cnt + 1)).setRes .timeout).goto .ldExit)) (.next (s.setPcCnt (cnt + 1)))

theorem actRest_overlaid (w : ActWrite) (s : State) : Overlaid f g (actRest w s) (actRest w (s.overlay f g)) := by
  cases w with
  | ader => exact .need fun k => .ite (.next ((s.setK (k + 1)).goto .acAder)) (.next ((s.setK (k + 1)).goto .acEn))
  | rst | dis | wb | vec | lvl | en => exact .next _

theorem actWrite_overlaid (w : ActWrite) (off : Nat) (b : Byte) :
    Overlaid f g (actWrite w off b s) (actWrite w off b (s.overlay f g)) := by
  unfold actWrite csrWrite
  exact .memWrite fun t => .ite (.next ((t.setRb w).goto .acRb)) (actRest_overlaid w t)

theorem phaseAcRb_overlaid : Overlaid f g (phaseAcRb s) (phaseAcRb (s.overlay f g)) := by
  have hread : ∀ w off, Overlaid f g (csrRead off (fun _ t => actRest w t) s)
      (csrRead off (fun _ t => actRest w t) (s.overlay f g)) := fun w off => .memRead fun _ t => actRest_overlaid w t
  refine .need fun w => ?_
  cases w with
  | ader => exact .need fun k => hread _ _
  | rst | dis | wb | vec | lvl | en => exact hread _ _

@[simp] theorem State.overlay_phase : (s.overlay f g).phase = s.phase := rfl

@[simp] theorem State.overlay_current : (s.overlay f g).current = s.current := rfl

/-- The sequencer's own step commutes with the overlay: no phase reads `OVR` or the host's side, and none sets them. -/
theorem advance_overlaid (s : State) : Overlaid f g (advance s) (advance (s.overlay f g)) := by
  unfold advance
  rw [State.overlay_current]
  unfold State.current
  cases hp : s.phase <;> simp only [Phase.command, exec, execCsrRead, execCsrWrite, execUnlock, execIsActive, execLoad,
    execActivate, State.overlay_phase, hp]
  case idle | fault => exact .next s
  case crRd => exact .withWindow (.memRead fun v t => .next ((t.setRdata (csrByte v)).finish .success))
  case cwWr => exact .withWindow (.memWrite fun t => .next (t.finish .success))
  case ulChk => exact .ite (.next ((s.setJ 0).goto .ulTrig)) (.next (s.finish .unlockFailed))
  case ulTrig => exact unlockTurn_overlaid fun t => .next (t.finish .success)
  case iaRd => exact .withWindow (.memRead fun v t => .next (State.finish _ (t.setActive _)))
  case ldChk =>
    exact .ite (.next (s.finish .bitstreamRejected))
      (.ite (.next ((s.setJ 0).goto .ldTrig)) (.next (s.finish .bitstreamRejected)))
  case ldTrig => exact unlockTurn_overlaid fun t => .next (t.goto .ldDet)
  case ldDet =>
    unfold phaseLdDet readActive
    exact .memRead fun v t =>
      .ite (.next ((t.setActive true).goto .ldSwrst)) (.next ((t.setActive false).finish .stillLocked))
  case ldSwrst => exact .memWrite fun t => .next (t.goto .ldStart)
  case ldStart => exact .memWrite fun t => .next (((t.setN 0).setPcCnt 0).goto .ldPollf)
  case ldPollf =>
    exact .need fun n => .ite (.next ((s.setPcCnt 0).goto .ldPolld))
      (.memRead fun v t => .ite (pollAgain_overlaid t) (.next ((t.setPcCnt 0).goto .ldCtl)))
  case ldCtl => exact .need fun n => .memWrite fun t => .next (t.goto .ldData)
  case ldData => exact .need fun n => .memWrite fun t => .next (((t.drawn 4).setN (n + 4)).goto .ldPollf)
  case ldPolld =>
    exact .memRead fun v t => .ite (.next (State.goto .ldExit (t.setRes _))) (pollAgain_overlaid t)
  case ldExit => exact .memWrite fun t => .need fun res => .next (t.finish res)
  case acRst => exact .withWindow (actWrite_overlaid .rst _ _)
  case acWait => exact .next ((s.record (.delay s.cfg.settle)).goto .acDis)
  case acDis => exact actWrite_overlaid .dis _ _
  case acWb => exact actWrite_overlaid .wb _ _
  case acVec => exact actWrite_overlaid .vec _ _
  case acLvl => exact actWrite_overlaid .lvl _ _
  case acAder =>
    exact .need fun k => .need fun tup => .ite (actWrite_overlaid .ader _ _) (.next (s.goto .acEn))
  case acEn => exact actWrite_overlaid .en _ _
  case acRb => exact phaseAcRb_overlaid

/-- Settles O56: `advance_overlaid` with another `OVR` and the host's side as it is. -/
theorem droppedOfferDisturbsNothing : Obligations.DroppedOfferDisturbsNothing := by
  unfold Obligations.DroppedOfferDisturbsNothing
  intro i s t b hcur ht
  have hr := advance_overlaid (f := id) (g := fun _ => b) s
  rw [advance_of_current hcur, advance_of_current (s := s.overlay _ _) hcur, ht] at hr
  exact hr.eq_next

end Sys2Proof.Machine
end

section
/-! PROOFS. The host's side of a step: late operand writes (O55), and which steps are refused (O59). A command given
outside `IDLE` is the sequencer's own step or a drop, so both follow from `advance_overlaid` without going through the
phases again. -/

namespace Sys2Proof.Machine

open Sys2Proof

variable {s : State} {r : Refusal}

/-! ### A command given outside IDLE -/

/-- A command given in a phase of its own is the sequencer's own step: which byte CSR_WRITE is named with is not looked at,
for its phase writes `ARG_BYTE` (R124). -/
theorem exec_eq_advance {i : Instr} {b : Byte} (h : s.phase.command b = some i) : exec i s = advance s := by
  cases hp : s.phase <;> rw [hp] at h <;> cases h <;>
    simp only [advance, State.current, Phase.command, exec, execCsrWrite, hp]

/-- In a phase of another command it is dropped (R235): the arms of `exec` beside that one are those of `IDLE` and of the
command's own phases. -/
theorem exec_eq_drop {i : Instr} (hp : s.phase ≠ .idle) (h : s.phase.command i.byte ≠ some i) :
    exec i s = .next s.drop := by
  cases i <;> cases hq : s.phase <;> simp [hq, Phase.command, Instr.byte] at hp h <;>
    simp only [exec, execCsrRead, execCsrWrite, execUnlock, execIsActive, execLoad, execActivate, hq]

/-! ### Late operand writes -/

/-- A host write of an operand register reaches the host's side only (R90, R273). -/
theorem stepInput_write {w : OperandWrite} {rest : List HostInput} (h : s.inputs = .write w :: rest) :
    stepInput s = .next (State.writePort w { s with inputs := rest }) := by
  simp [stepInput, h, hostInput]

/-- Settles O55: the equation of a host write; and outside `IDLE` a command is the sequencer's own step, which commutes
with every update of the host's side, or a drop, which does not touch it. -/
theorem lateOperandWritesHaveNoEffect : Obligations.LateOperandWritesHaveNoEffect := by
  unfold Obligations.LateOperandWritesHaveNoEffect
  refine ⟨fun s w rest hc hi => ?_, fun i s t p hp ht => ?_⟩
  · rw [step_of_wf hc, stepInput_write hi]
    cases w <;> rfl
  · by_cases hown : s.phase.command i.byte = some i
    · have hr := advance_overlaid (f := fun _ => p) (g := id) s
      rw [← exec_eq_advance hown, ← exec_eq_advance (s := s.overlay _ _) hown, ht] at hr
      exact hr.eq_next
    · cases (exec_eq_drop hp hown).symm.trans ht
      exact exec_eq_drop (s := { s with port := p }) hp hown

/-! ### Refusals -/

/-- The sequencer's own step is refused in no state, whatever its configuration. -/
theorem advance_ne_refused_of_any_cfg (s : State) (r : Refusal) : advance s ≠ .refused r := by
  intro h
  have hr := advance_overlaid (f := id) (g := id) s
  rw [h] at hr
  cases hr

/-- No command is refused: acceptance, the sequencer's own step and a drop all go on (R90, R235). -/
theorem exec_ne_refused (i : Instr) (s : State) (r : Refusal) : exec i s ≠ .refused r := by
  by_cases hp : s.phase = .idle
  · rw [exec_of_idle hp]
    nofun
  by_cases hown : s.phase.command i.byte = some i
  · rw [exec_eq_advance hown]
    exact advance_ne_refused_of_any_cfg s r
  · rw [exec_eq_drop hp hown]
    nofun

/-- The window provider's input is refused for a changed mapping during a command (R265). -/
theorem setWindow_refused_iff {m : Bool} :
    setWindow m s = .refused r ↔ r = .hostDuty .windowStable ∧ s.current ≠ none ∧ m ≠ s.winMapped := by
  unfold setWindow
  split
  next h => exact ⟨fun e => by cases e; exact ⟨rfl, h⟩, fun ⟨e, _⟩ => by rw [e]⟩
  next h => exact ⟨nofun, fun ⟨_, h'⟩ => absurd h' h⟩

/-- The image provider's input is refused for a changed image during LOAD (R78, R265). -/
theorem setImage_refused_iff {img : List Byte} :
    setImage img s = .refused r ↔ r = .hostDuty .imageStable ∧ s.current = some .load ∧ img ≠ s.image := by
  unfold setImage
  split
  next h => exact ⟨fun e => by cases e; exact ⟨rfl, h⟩, fun ⟨e, _⟩ => by rw [e]⟩
  next h => exact ⟨nofun, fun ⟨_, h'⟩ => absurd h' h⟩

theorem stepInput_setWindow {m : Bool} {rest : List HostInput} (h : s.inputs = .setWindow m :: rest) :
    stepInput s = setWindow m { s with inputs := rest } := by
  simp [stepInput, h, hostInput]

theorem stepInput_setImage {img : List Byte} {rest : List HostInput} (h : s.inputs = .setImage img :: rest) :
    stepInput s = setImage img { s with inputs := rest } := by
  simp [stepInput, h, hostInput]

/-- Only an input of a provider can be refused on a configuration a machine is built for. -/
theorem stepInput_refused_cases (hc : s.cfg.wf = true) (h : stepInput s = .refused r) :
    (∃ m rest, s.inputs = .setWindow m :: rest) ∨ ∃ img rest, s.inputs = .setImage img :: rest := by
  unfold stepInput at h
  split at h
  · exact absurd h (advance_ne_refused hc r)
  next e rest hi =>
    split at h
    · exact absurd h (advance_ne_refused hc r)
    cases e with
    | setWindow m => exact .inl ⟨m, rest, hi⟩
    | setImage img => exact .inr ⟨img, rest, hi⟩
    | tick => exact absurd h (advance_ne_refused (by exact hc) r)
    | offer cw => exact absurd h (offerWord_ne_refused (by exact hc) cw r)
    | write | reset | waitDone | skipUnlessSuccess => cases h

/-- Settles O59: the two inputs of the providers are the only ones that can be refused. -/
theorem noCommandRefused : Obligations.NoCommandRefused := by
  unfold Obligations.NoCommandRefused
  refine ⟨exec_ne_refused, fun s r h => ?_, fun s m rest hc hi => ?_, fun s img rest hc hi => ?_⟩
  · by_cases hc : s.cfg.wf = true
    · rw [step_of_wf hc] at h
      obtain ⟨m, rest, hi⟩ | ⟨img, rest, hi⟩ := stepInput_refused_cases hc h
      · obtain ⟨hr, hcur, hne⟩ := setWindow_refused_iff.mp (stepInput_setWindow hi ▸ h)
        exact .inr (.inl ⟨hr, hcur, m, rest, hi, hne⟩)
      · obtain ⟨hr, hcur, hne⟩ := setImage_refused_iff.mp (stepInput_setImage hi ▸ h)
        exact .inr (.inr ⟨hr, hcur, img, rest, hi, hne⟩)
    · obtain ⟨k, hk⟩ := (step_refused_configuration_iff s).mpr hc
      cases h.symm.trans hk
      exact .inl ⟨k, rfl⟩
  · rw [step_of_wf hc, stepInput_setWindow hi]
    refine ⟨fun hok => if_neg ?_, fun hcur hne => setWindow_refused_iff.mpr ⟨rfl, hcur, hne⟩⟩
    rintro ⟨hcur, hne⟩
    exact hok.elim hcur hne
  · rw [step_of_wf hc, stepInput_setImage hi]
    refine ⟨fun hok => if_neg ?_, fun hcur hne => setImage_refused_iff.mpr ⟨rfl, hcur, hne⟩⟩
    rintro ⟨hcur, hne⟩
    exact hok.elim (fun h => h hcur) hne

end Sys2Proof.Machine
end

section
/-! PROOFS. Reset with and without a transaction under way (O10, O11): what lands is the pending access, whichever it is,
so the table of pending accesses and the two laws on `landTransaction` and `applyReset` serve for every phase. -/

namespace Sys2Proof

/-- The answer to a read tells its value. -/
theorem Response.ofWord_injective : Function.Injective Response.ofWord := by
  intro v w h
  obtain ⟨h0, h1, h2, h3⟩ := Response.done.inj h
  rw [← Machine.beWord_beByte v, h0, h1, h2, h3, Machine.beWord_beByte]

end Sys2Proof

namespace Sys2Proof.Machine

open Sys2Proof

variable {s t : State} {a : Nat} {v : Word} {x : Access} {landed : Bool}

/-! ### The pending access as an event -/

/-- The event of the pending access is a write of the pending word, or a read where there is none. -/
theorem pending_event_cases (hx : s.pending = some x) (v : Word) :
    (∃ w, s.pendingWord = some w ∧ x.event v = .write x.addr w) ∨
      (s.pendingWord = none ∧ x.event v = .read x.addr v) := by
  cases x with
  | read a => exact .inr ⟨by simp only [State.pendingWord, hx], rfl⟩
  | write a w => exact .inl ⟨w, by simp only [State.pendingWord, hx], rfl⟩

/-! ### Any reset -/

/-- A step whose input is a reset applies it (R260). -/
theorem step_reset {rest : List HostInput} (hc : s.cfg.wf = true) (hi : s.inputs = .reset landed :: rest) :
    step s = .next (applyReset landed { s with inputs := rest }) :=
  (step_of_wf hc).trans (stepInput_reset hi)

/-- A reset that lets nothing land leaves the record and the window (R260). -/
theorem applyReset_not_landed (h : landed = false ∨ s.underWay = false) :
    (applyReset landed s).trace = s.trace ∧ (applyReset landed s).window = s.window :=
  applyReset_elim (P := fun t => t.trace = s.trace ∧ t.window = s.window) landed (fun _ => ⟨rfl, rfl⟩)
    (fun hu hl => by simp [hu, hl] at h) (fun _ _ => ⟨rfl, rfl⟩)

/-- A reset that lets the transaction under way land is, for the record and the window, the landing. -/
theorem applyReset_landed (h : s.underWay = true) : applyReset true s = (landTransaction s).resetSequencer := by
  rw [applyReset, if_pos h, if_pos rfl]

/-- The event a reset can add: the access the phase was about to issue, completed or answered with an error. -/
theorem applyReset_event (landed : Bool) (s : State) :
    ((applyReset landed s).trace = s.trace ∧ (applyReset landed s).window = s.window) ∨
      ∃ x, s.pending = some x ∧ x.addr + 4 ≤ s.cfg.winSize ∧
        ((∃ v, (applyReset landed s).trace = x.event v :: s.trace ∧
            (applyReset landed s).window = windowAfter s.window (x.event v)) ∨
          ((applyReset landed s).trace = .error x.addr :: s.trace ∧ (applyReset landed s).window = s.window)) := by
  by_cases h : landed = false ∨ s.underWay = false
  · exact .inl (applyReset_not_landed h)
  · obtain ⟨hl, hu⟩ : landed = true ∧ s.underWay = true := by simpa using h
    rw [hl, applyReset_landed hu]
    obtain ⟨x, hx, ha, hsame | hevent⟩ := landTransaction_event hu
    · exact .inl hsame
    · exact .inr ⟨x, hx, ha, hevent⟩

/-- Settles O10: the registers, the rest of the state, and the event of `applyReset`. -/
theorem resetGivesIdle : Obligations.ResetGivesIdle := by
  unfold Obligations.ResetGivesIdle
  intro s landed rest hc hi
  obtain ⟨hphase, hstatus, hinfo, hwork⟩ := applyReset_registers landed { s with inputs := rest }
  obtain ⟨hcfg, hmapped, himage, hinputs, -⟩ := applyReset_effect (s := { s with inputs := rest }) hc landed
  refine ⟨_, step_reset hc hi, hphase, by rw [hstatus]; decide, hinfo, hwork, hcfg, hmapped, himage, hinputs,
    fun h => applyReset_not_landed (s := { s with inputs := rest }) h, ?_⟩
  refine (applyReset_event landed { s with inputs := rest }).imp_right ?_
  rintro ⟨x, hx, ha, hevent⟩
  change s.pending = some x at hx
  refine ⟨x.addr, by rw [State.pendingAddr, hx]; rfl, ha, ?_⟩
  obtain ⟨v, htrace, hwindow⟩ | herror := hevent
  · obtain ⟨w, hw, he⟩ | ⟨hw, he⟩ := pending_event_cases hx v <;> rw [he] at htrace hwindow
    · exact .inl ⟨w, hw, htrace, hwindow⟩
    · exact .inr (.inl ⟨v, hw, htrace, hwindow⟩)
  · exact .inr (.inr herror)

/-! ### A transaction that lands -/

/-- An answer other than silence is not touched by the landing. -/
theorem Device.land_of_not_silent {d : Device} (h : d.peek ≠ .silent) (draw : Nat) : d.land draw = d :=
  if_neg h

/-- A hanging transaction that lands is completed (R260, log entry 17). -/
theorem Device.land_completes_of_silent {d : Device} (h : d.peek = .silent) (draw : Nat) :
    (d.land draw).peek.completes := by
  rw [Device.land, if_pos h]
  exact ⟨_, _, _, _, rfl⟩

/-- A transaction that lands and is not answered with an error is completed, with the device's own answer if it has one. -/
theorem Device.land_done {d : Device} (h : d.peek ≠ .error) (draw : Nat) :
    ∃ v, (d.land draw).peek = Response.ofWord v ∧ ∀ w, d.peek = Response.ofWord w → v = w := by
  by_cases hs : d.peek = .silent
  · obtain ⟨v, hv⟩ := Response.completes_iff.mp (Device.land_completes_of_silent hs draw)
    exact ⟨v, hv, fun w hw => by cases hs.symm.trans hw⟩
  · obtain ⟨v, hv⟩ : ∃ v, d.peek = Response.ofWord v := by
      cases hd : d.peek with
      | done b0 b1 b2 b3 => exact Response.completes_iff.mp ⟨b0, b1, b2, b3, rfl⟩
      | error => exact absurd hd h
      | silent => exact absurd hd hs
    rw [Device.land_of_not_silent hs]
    exact ⟨v, hv, fun w hw => Response.ofWord_injective (hv.symm.trans hw)⟩

/-- `s` as its transaction lands: a hanging answer has become a free one (log entry 17). -/
def State.landing (s : State) : State := { s with device := s.device.land (s.draws + 4) }

/-- From a state of the invariant the landing is the sequencer's own step. -/
theorem landTransaction_of_inv (h : s.Inv) (hc : s.cfg.wf = true) :
    ∃ t, advance s.landing = .next t ∧ landTransaction s = { t with draws := s.draws + 8 } := by
  have hinv : s.landing.Inv := h.access (rd := s.work.rd) h.window
  unfold landTransaction
  rw [← State.landing]
  cases hadv : advance s.landing with
  | next t => exact ⟨t, rfl, rfl⟩
  | fault f => exact absurd hadv ((advance_keeps hinv hc).1 f)
  | refused r => exact absurd hadv (advance_ne_refused (by exact hc) r)

/-- A landing transaction that the device answers with an error (log entry 9). -/
theorem landTransaction_error (h : s.Inv) (hc : s.cfg.wf = true) (ha : s.pendingAddr = some a)
    (hw : a + 4 ≤ s.cfg.winSize) (hd : s.device.peek = .error) :
    (landTransaction s).trace = .error a :: s.trace ∧ (landTransaction s).window = s.window := by
  obtain ⟨t, ht, hland⟩ := landTransaction_of_inv h hc
  obtain ⟨k, hk⟩ := advance_eq_transact (s := s.landing) ha
  have herr : s.landing.device.peek = .error := by
    rw [State.landing, Device.land_of_not_silent (by simp [hd]), hd]
  rw [hk, transact_error (s := s.landing) hw herr] at ht
  cases ht
  rw [hland]
  exact ⟨rfl, rfl⟩

/-- Any other landing transaction is completed: a read shows the device's value where the device completes it. -/
theorem landTransaction_completed (h : s.Inv) (hc : s.cfg.wf = true) (hx : s.pending = some x)
    (hw : x.addr + 4 ≤ s.cfg.winSize) (hd : s.device.peek ≠ .error) :
    ∃ v, (landTransaction s).trace = x.event v :: s.trace ∧
      (landTransaction s).window = windowAfter s.window (x.event v) ∧ ∀ w, s.device.peek = Response.ofWord w → v = w := by
  obtain ⟨t, ht, hland⟩ := landTransaction_of_inv h hc
  obtain ⟨v, hv, hvalue⟩ := Device.land_done hd (s.draws + 4)
  have hm := advance_matches s.landing
  rw [show s.landing.pending = some x from hx] at hm
  obtain ⟨k, hk, hdone⟩ := hm
  rw [hk, transact_done (s := s.landing) hw hv, beWord_beByte] at ht
  obtain ⟨f, hf⟩ | ⟨u, hu, htrace, hwindow, -⟩ := hdone v
  · cases hf.symm.trans ht
  · cases hu.symm.trans ht
    rw [hland]
    exact ⟨v, htrace, hwindow, hvalue⟩

/-- Settles O11: the landing for each answer of the device, and the reset that lets nothing land. -/
theorem writeUnderWayMayLand : Obligations.WriteUnderWayMayLand := by
  unfold Obligations.WriteUnderWayMayLand
  intro s a rest hc hinv ha hw
  obtain ⟨x, hx, rfl⟩ := Option.map_eq_some_iff.mp ha
  refine ⟨fun hi => ?_, fun hi => ⟨_, step_reset hc hi, (applyReset_registers _ _).1, ?_⟩⟩
  · have hu : State.underWay { s with inputs := rest } = true := State.underWay_iff.mpr ⟨x, hx, hw⟩
    have hinv' : State.Inv { s with inputs := rest } := hinv.hostSide s.port s.winMapped s.image rest s.status.ovr
    refine ⟨_, step_reset hc hi, (applyReset_registers _ _).1, ?_⟩
    rw [applyReset_landed hu]
    refine ⟨fun hd => landTransaction_error hinv' hc ha hw hd, fun hd => ?_⟩
    obtain ⟨v, htrace, hwindow, hvalue⟩ := landTransaction_completed hinv' hc hx hw hd
    obtain ⟨w, hword, he⟩ | ⟨hword, he⟩ := pending_event_cases hx v <;> rw [he] at htrace hwindow
    · rw [hword]
      exact ⟨fun w' hw' => by cases hw'; exact ⟨htrace, hwindow⟩, nofun⟩
    · rw [hword]
      exact ⟨nofun, fun _ => ⟨v, htrace, hwindow, hvalue⟩⟩
  · exact applyReset_not_landed (s := { s with inputs := rest }) (.inl rfl)

end Sys2Proof.Machine
end

section
/-! PROOFS. LOAD ends under the device premises (O37): the phases of LOAD from the last to the first, each ending because
the phases after it do. The trigger writes and the chunks are inductions on how many are left, the two polls inductions on
the number of the answer that satisfies them. -/

namespace Sys2Proof.Machine

open Sys2Proof

variable {s t : State} {v : Word} {a cnt j k len m n : Nat}

/-! ### Runs that lead to an end -/

/-- The command in progress ends, some number of steps on (R272). -/
def State.willEnd (s : State) : Prop := ∃ k t, s.commandEnds k t

/-- A step into `IDLE` with an outcome ends the command. -/
theorem commandEnds_of_step (hp : s.phase ≠ .idle) (hstep : step s = .next t) (ht : t.ended) : s.commandEnds 1 t := by
  refine ⟨hp, run_succ_of_step hstep 0, ht, fun m u hm hrun => ?_⟩
  obtain rfl : m = 0 := by omega
  cases hrun
  exact hp

/-- One step more before the end. -/
theorem State.commandEnds.cons {u : State} (h : t.commandEnds k u) (hp : s.phase ≠ .idle) (hstep : step s = .next t) :
    s.commandEnds (k + 1) u := by
  obtain ⟨-, hrun, hend, hfirst⟩ := h
  refine ⟨hp, (run_succ_of_step hstep k).trans hrun, hend, fun m w hm hw => ?_⟩
  cases m with
  | zero => cases hw; exact hp
  | succ m => exact hfirst m w (by omega) ((run_succ_of_step hstep m).symm.trans hw)

/-- What a step leads to is reached. -/
theorem State.reaches.of_step {u : State} (hstep : step s = .next t) (h : t.reaches u) : s.reaches u := by
  obtain ⟨k, hk⟩ := h
  exact ⟨k + 1, (run_succ_of_step hstep k).trans hk⟩

/-- The unsatisfied poll that reaches the bound, in either poll (R173). -/
theorem exec_load_polled_limit (hc : s.cfg.wf = true) (h : s.waitsOn a v)
    (hv : s.device.peek = Response.ofWord v) (hcnt : s.work.pcCnt = some cnt) (hlim : s.cfg.pollLimit = some (cnt + 1)) :
    exec .load s = .next (((s.polled a v cnt).setRes .timeout).goto .ldExit) := by
  obtain ⟨hp, rfl, hfull, n, hn, hlt⟩ | ⟨hp, rfl, hdone⟩ := h
  · rw [exec_load_ldPollf hc hv hp hn hlt hfull, pollAgain_limit hcnt hlim]
  · rw [exec_load_ldPolld hc hv hp hdone, pollAgain_limit hcnt hlim]

/-- The value of the next answer, if it completes a read. -/
theorem Device.value_zero {d : Device} (h : d.peek = Response.ofWord v) : d.value 0 = v := by
  simp [Device.value, Device.later, h, Response.ofWord]

theorem pendingTrigger_addr {x : Access} (h : s.pendingTrigger = some x) : x.addr = ldrBtrigr s.cfg := by
  unfold State.pendingTrigger at h
  split at h
  · obtain ⟨-, hx⟩ := Option.ite_none_right_eq_some.mp h
    cases hx
    rfl
  · cases h

theorem pendingPoll_addr {x : Access} (h : s.pendingPoll = some x) : x.addr = ldrFifoCsr s.cfg := by
  unfold State.pendingPoll at h
  split at h
  · obtain ⟨-, hx⟩ := Option.ite_none_left_eq_some.mp h
    cases hx
    rfl
  · cases h

/-- LOAD accesses registers of the loader only, all of them inside the window (R9(1), R42 to R46). -/
theorem underWay_of_load (hc : s.cfg.wf = true) (hcur : s.current = some .load) (hx : s.pending ≠ none) :
    s.underWay = true := by
  obtain ⟨x, hx⟩ := Option.ne_none_iff_exists'.mp hx
  suffices hreg : ∃ o ∈ s.cfg.loaderOffsets, x.addr = s.cfg.ldrBase + o by
    obtain ⟨o, ho, ha⟩ := hreg
    exact State.underWay_iff.mpr ⟨x, hx, ha ▸ (Config.loader_onWindow hc ho).2⟩
  cases hp : s.phase <;> simp only [State.pending, hp] at hx
  case ldChk => cases hx
  case ldTrig => exact ⟨s.cfg.offBtrigr, by simp [Config.loaderOffsets], pendingTrigger_addr hx⟩
  case ldDet => cases hx; exact ⟨s.cfg.offIdr, by simp [Config.loaderOffsets], rfl⟩
  case ldSwrst | ldStart | ldPolld | ldExit => cases hx; exact ⟨s.cfg.offCsr, by simp [Config.loaderOffsets], rfl⟩
  case ldPollf => exact ⟨s.cfg.offFifoCsr, by simp [Config.loaderOffsets], pendingPoll_addr hx⟩
  case ldCtl =>
    obtain ⟨n, -, rfl⟩ := Option.map_eq_some_iff.mp hx
    exact ⟨s.cfg.offFifoR0, by simp [Config.loaderOffsets], rfl⟩
  case ldData =>
    obtain ⟨n, -, rfl⟩ := Option.map_eq_some_iff.mp hx
    exact ⟨s.cfg.offFifoR1, by simp [Config.loaderOffsets], rfl⟩
  all_goals cases (State.current_of_phase hp).symm.trans hcur

/-- `s` is in phase `p` of a LOAD of `len` bytes, at the chunk at `n`. -/
structure AtChunk (p : Phase) (len n : Nat) (s : State) : Prop where
  phase : s.phase = p
  n : s.work.n = some n
  imageLen : imageLen s = len

/-! ### The premises along a run -/

/-- A state of the invariant, the host silent, under the premises of R265: the device serves the run to come (log entry
27). -/
structure State.Served (s : State) : Prop where
  wf : s.cfg.wf = true
  inv : s.Inv
  inputs : s.inputs = []
  noBusError : s.noBusError
  fifoDrains : s.fifoDrains
  doneEventually : s.doneEventually

namespace State.Served

/-- The premises are about the whole run, so every step keeps them. -/
theorem of_step (h : s.Served) (hstep : step s = .next t) : t.Served where
  wf := by rw [(step_alone h.inputs hstep).2.1, h.wf]
  inv := stepKeepsInvariant s t h.inv hstep
  inputs := (step_alone h.inputs hstep).1
  noBusError u hu := h.noBusError u (.of_step hstep hu)
  fifoDrains u hu := h.fifoDrains u (.of_step hstep hu)
  doneEventually u hu := h.doneEventually u (.of_step hstep hu)

/-- The step of a phase of LOAD. -/
theorem step_eq_load (h : s.Served) (hcur : s.current = some .load) : step s = exec .load s := by
  rw [step_of_wf h.wf, stepInput_nil h.inputs, advance_of_current hcur]

/-- LOAD ends if it does from the next state on. -/
theorem willEnd_of_next (h : s.Served) (hcur : s.current = some .load) (hexec : exec .load s = .next t)
    (ht : t.Served → t.willEnd) : s.willEnd := by
  have hstep := (h.step_eq_load hcur).trans hexec
  obtain ⟨k, u, hu⟩ := ht (h.of_step hstep)
  exact ⟨k + 1, u, hu.cons (phase_ne_idle_of_current hcur) hstep⟩

/-- A phase that finishes with an outcome ends LOAD (R234). -/
theorem willEnd_of_finish {o : CmdOutcome} (h : s.Served) (hcur : s.current = some .load)
    (hexec : exec .load s = .next (t.finish o)) (ho : o ≠ .none) : s.willEnd :=
  ⟨1, _, commandEnds_of_step (phase_ne_idle_of_current hcur) ((h.step_eq_load hcur).trans hexec) ⟨rfl, rfl, ho⟩⟩

/-- The access a phase of LOAD is about to issue is completed (`DEV_NO_BUS_ERROR`). -/
theorem completes (h : s.Served) (hcur : s.current = some .load) (hx : s.pending ≠ none) : s.device.peek.completes :=
  h.noBusError s ⟨0, rfl⟩ (underWay_of_load h.wf hcur hx)

/-! ### The exit write and the two polls -/

/-- The exit write reports an outcome (R172). -/
theorem willEnd_of_ldExit (h : s.Served) (hp : s.phase = .ldExit) : s.willEnd := by
  obtain ⟨res, hres, hor⟩ := (State.workOk_ldExit hp).mp h.inv.work
  have hd : s.device.peek.completes := h.completes (State.current_of_phase hp) (by simp [State.pending, hp])
  refine h.willEnd_of_finish (State.current_of_phase hp) (exec_load_ldExit_done h.wf hp hres hd) ?_
  rcases hor with rfl | rfl | ⟨rfl, -⟩ <;> nofun

/-- An unsatisfied poll ends LOAD at the bound, and elsewhere if the repeated poll does (R173). -/
theorem willEnd_of_waits (h : s.Served) (hwait : s.waitsOn a v) (hv : s.device.peek = Response.ofWord v)
    (hpoll : ∀ cnt, (s.polled a v cnt).Served → (s.polled a v cnt).willEnd) : s.willEnd := by
  have hphase : s.phase = .ldPollf ∨ s.phase = .ldPolld := hwait.imp And.left And.left
  obtain ⟨cnt, hcnt, -⟩ := h.inv.pollCounted hphase
  by_cases hlim : s.cfg.pollLimit = some (cnt + 1)
  · exact h.willEnd_of_next hwait.current (exec_load_polled_limit h.wf hwait hv hcnt hlim)
      fun ht => ht.willEnd_of_ldExit rfl
  · exact h.willEnd_of_next hwait.current (exec_load_polled h.wf hwait hv hcnt hlim) (hpoll cnt)

/-- A wait ends LOAD if its satisfied poll does, by induction on the number of the answer that satisfies it. `P` is what the
wait keeps, `sat` says which values satisfy it. -/
theorem willEnd_of_wait {P : State → Prop} {sat : Word → Bool} (hkeep : ∀ u v cnt, P u → P (u.polled a v cnt))
    (hwaits : ∀ u v, P u → sat v = false → u.waitsOn a v) (hreads : ∀ u, u.Served → P u → u.device.peek.completes)
    (hsat : ∀ u v, u.Served → P u → u.device.peek = Response.ofWord v → sat v = true → u.willEnd)
    (h : s.Served) (hP : P s) (hm : sat (s.device.value m) = true) : s.willEnd := by
  induction m generalizing s with
  | zero =>
    obtain ⟨v, hv⟩ := Response.completes_iff.mp (hreads s h hP)
    exact hsat s v h hP hv (Device.value_zero hv ▸ hm)
  | succ m ih =>
    obtain ⟨v, hv⟩ := Response.completes_iff.mp (hreads s h hP)
    cases hs : sat v with
    | true => exact hsat s v h hP hv hs
    | false => exact h.willEnd_of_waits (hwaits s v hP hs) hv fun cnt ht => ih ht (hkeep s v cnt hP) hm

/-- The completion poll ends by an answer with `P_CSR_DONE` set (R170). -/
theorem willEnd_of_ldPolld (h : s.Served) (hp : s.phase = .ldPolld) : s.willEnd := by
  obtain ⟨m, hm⟩ := h.doneEventually s ⟨0, rfl⟩ hp
  refine willEnd_of_wait (P := fun u => u.phase = .ldPolld ∧ u.cfg = s.cfg) (sat := isDone s.cfg) (a := ldrCsr s.cfg)
    (fun _ _ _ hu => hu) ?_ ?_ ?_ h ⟨hp, rfl⟩ hm
  · rintro u v ⟨hpu, hcfg⟩ hv
    exact .inr ⟨hpu, by rw [hcfg], by rwa [hcfg]⟩
  · rintro u hu ⟨hpu, -⟩
    exact hu.completes (State.current_of_phase hpu) (by simp [State.pending, hpu])
  · rintro u v hu ⟨hpu, hcfg⟩ hv hdone
    exact hu.willEnd_of_next (State.current_of_phase hpu) (exec_load_ldPolld_done hu.wf hv hpu (by rwa [hcfg]))
      fun ht => ht.willEnd_of_ldExit rfl

/-! ### The chunks -/

/-- The data word of the chunk at `n` (R167): the FIFO poll of the next one follows. -/
theorem willEnd_of_ldData (h : s.Served) (hat : AtChunk .ldData len n s)
    (hnext : ∀ t, t.Served → AtChunk .ldPollf len (n + 4) t → t.willEnd) : s.willEnd := by
  have hd : s.device.peek.completes :=
    h.completes (State.current_of_phase hat.phase) (by simp [State.pending, hat.phase, hat.n])
  exact h.willEnd_of_next (State.current_of_phase hat.phase) (exec_load_ldData h.wf hat.phase hat.n hd)
    fun ht => hnext _ ht ⟨rfl, rfl, hat.imageLen⟩

/-- Its control word (R165). -/
theorem willEnd_of_ldCtl (h : s.Served) (hat : AtChunk .ldCtl len n s)
    (hnext : ∀ t, t.Served → AtChunk .ldPollf len (n + 4) t → t.willEnd) : s.willEnd := by
  have hd : s.device.peek.completes :=
    h.completes (State.current_of_phase hat.phase) (by simp [State.pending, hat.phase, hat.n])
  exact h.willEnd_of_next (State.current_of_phase hat.phase) (exec_load_ldCtl h.wf hat.phase hat.n hd)
    fun ht => ht.willEnd_of_ldData ⟨rfl, hat.n, hat.imageLen⟩ hnext

/-- Its FIFO poll, ended by an answer with `P_FIFO_FULL` clear (R168). -/
theorem willEnd_of_fifoPoll (h : s.Served) (hat : AtChunk .ldPollf len n s) (hlt : n < len)
    (hnext : ∀ t, t.Served → AtChunk .ldPollf len (n + 4) t → t.willEnd) : s.willEnd := by
  have hpending : ∀ {u}, AtChunk .ldPollf len n u → u.pending ≠ none := fun hu => by
    simp [State.pending, hu.phase, State.pendingPoll, hu.n, hu.imageLen, hlt]
  obtain ⟨m, hm⟩ := h.fifoDrains s ⟨0, rfl⟩ hat.phase
    (underWay_of_load h.wf (State.current_of_phase hat.phase) (hpending hat))
  refine willEnd_of_wait (P := fun u => AtChunk .ldPollf len n u ∧ u.cfg = s.cfg) (sat := fun v => !fifoIsFull s.cfg v)
    (a := ldrFifoCsr s.cfg) ?_ ?_ ?_ ?_ h ⟨hat, rfl⟩ (by rw [hm]; rfl)
  · rintro u v cnt ⟨hatu, hcfg⟩
    exact ⟨⟨hatu.phase, hatu.n, hatu.imageLen⟩, hcfg⟩
  · rintro u v ⟨hatu, hcfg⟩ hfull
    exact .inl ⟨hatu.phase, by rw [hcfg], by rw [hcfg]; simpa using hfull, n, hatu.n, by rwa [hatu.imageLen]⟩
  · rintro u hu ⟨hatu, -⟩
    exact hu.completes (State.current_of_phase hatu.phase) (hpending hatu)
  · rintro u v hu ⟨hatu, hcfg⟩ hv hroom
    exact hu.willEnd_of_next (State.current_of_phase hatu.phase)
      (exec_load_ldPollf_room hu.wf hv hatu.phase hatu.n (by rwa [hatu.imageLen]) (by rw [hcfg]; simpa using hroom))
      fun ht => ht.willEnd_of_ldCtl ⟨rfl, hatu.n, hatu.imageLen⟩ hnext

/-- The chunks from the one at `n` on, by induction on how many are left, then the completion poll (R169). -/
theorem willEnd_of_ldPollf (h : s.Served) (hat : AtChunk .ldPollf len n s) : s.willEnd := by
  obtain ⟨r, hr⟩ : ∃ r, len ≤ n + 4 * r := ⟨len, by omega⟩
  have streamed : ∀ {n s}, s.Served → AtChunk .ldPollf len n s → len ≤ n → s.willEnd := fun h hat hle =>
    h.willEnd_of_next (State.current_of_phase hat.phase)
      (exec_load_ldPollf_streamed hat.phase hat.n (by rwa [hat.imageLen])) fun ht => ht.willEnd_of_ldPolld rfl
  induction r generalizing s n with
  | zero => exact streamed h hat hr
  | succ r ih =>
    by_cases hle : len ≤ n
    · exact streamed h hat hle
    · exact h.willEnd_of_fifoPoll hat (by omega) fun t ht hat' => ih ht hat' (by omega)

/-! ### The start of a session, the detection, the trigger writes and the checks -/

/-- The two writes of R163. -/
theorem willEnd_of_ldStart (h : s.Served) (hp : s.phase = .ldStart) : s.willEnd := by
  have hd : s.device.peek.completes := h.completes (State.current_of_phase hp) (by simp [State.pending, hp])
  exact h.willEnd_of_next (State.current_of_phase hp) (exec_load_ldStart h.wf hp hd)
    fun ht => ht.willEnd_of_ldPollf ⟨rfl, rfl, rfl⟩

theorem willEnd_of_ldSwrst (h : s.Served) (hp : s.phase = .ldSwrst) : s.willEnd := by
  have hd : s.device.peek.completes := h.completes (State.current_of_phase hp) (by simp [State.pending, hp])
  exact h.willEnd_of_next (State.current_of_phase hp) (exec_load_ldSwrst h.wf hp hd)
    fun ht => ht.willEnd_of_ldStart rfl

/-- The identifier read starts the session or ends LOAD with `StillLocked` (R162). -/
theorem willEnd_of_ldDet (h : s.Served) (hp : s.phase = .ldDet) : s.willEnd := by
  obtain ⟨v, hv⟩ := Response.completes_iff.mp <|
    h.completes (State.current_of_phase hp) (by simp [State.pending, hp])
  by_cases hmatch : v = s.cfg.idWord
  · exact h.willEnd_of_next (State.current_of_phase hp) (exec_load_ldDet_match h.wf hp (hmatch ▸ hv))
      fun ht => ht.willEnd_of_ldSwrst rfl
  · exact h.willEnd_of_finish (State.current_of_phase hp) (exec_load_ldDet_mismatch h.wf hp hv hmatch) nofun

/-- Trigger write `j`, after which the next one follows, or the detection (R141, R162). -/
theorem willEnd_of_trigger (h : s.Served) (hp : s.phase = .ldTrig) (hj : s.work.j = some j) (hlt : j < 8)
    (hnext : ∀ t : State, t.Served → t.phase = (if j = 7 then .ldDet else .ldTrig) → t.work.j = some (j + 1) →
      t.willEnd) : s.willEnd := by
  have hcur := State.current_of_phase hp
  have hd : s.device.peek.completes := h.completes hcur (by simp [State.pending, hp, State.pendingTrigger, hj, hlt])
  exact h.willEnd_of_next hcur (exec_load_ldTrig h.wf hp hj hlt hd) fun ht => hnext _ ht rfl rfl

/-- The trigger writes, by induction on how many are left after the next one. -/
theorem willEnd_of_ldTrig (h : s.Served) (hp : s.phase = .ldTrig) : s.willEnd := by
  obtain ⟨j, hj, hlt⟩ := (State.workOk_trigger (.inr hp)).mp h.inv.work
  obtain ⟨r, hr⟩ : ∃ r, j + r = 7 := ⟨7 - j, by omega⟩
  induction r generalizing s j with
  | zero => exact h.willEnd_of_trigger hp hj hlt fun t ht hpt _ => ht.willEnd_of_ldDet (hpt.trans (if_pos hr))
  | succ r ih =>
    refine h.willEnd_of_trigger hp hj hlt fun t ht hpt hjt => ?_
    exact ih ht (hpt.trans (if_neg (by omega))) (j + 1) hjt (by omega) (by omega)

/-- The checks end LOAD with `BitstreamRejected` or begin the trigger writes (R161). -/
theorem willEnd_of_ldChk (h : s.Served) (hp : s.phase = .ldChk) : s.willEnd := by
  have hcur := State.current_of_phase hp
  by_cases hbad : s.operands.imgValid = false ∨ s.operands.imgLen = 0#32 ∨ s.operands.winValid = false
  · exact h.willEnd_of_finish hcur (exec_load_ldChk_refused hp hbad) nofun
  · obtain ⟨hv, hl, hw⟩ : s.operands.imgValid = true ∧ s.operands.imgLen ≠ 0#32 ∧ s.operands.winValid = true := by
      simpa using hbad
    exact h.willEnd_of_next hcur (exec_load_ldChk_passed hp hv hl hw) fun ht => ht.willEnd_of_ldTrig rfl

end State.Served

/-- Settles O37: by the phase of LOAD the run starts in. -/
theorem loadEnds : Obligations.LoadEnds := by
  unfold Obligations.LoadEnds
  intro s hc hinv hi hcur hbus hfifo hdone
  have h : s.Served := ⟨hc, hinv, hi, hbus, hfifo, hdone⟩
  change s.willEnd
  cases hp : s.phase with
  | ldChk => exact h.willEnd_of_ldChk hp
  | ldTrig => exact h.willEnd_of_ldTrig hp
  | ldDet => exact h.willEnd_of_ldDet hp
  | ldSwrst => exact h.willEnd_of_ldSwrst hp
  | ldStart => exact h.willEnd_of_ldStart hp
  | ldPollf =>
    obtain ⟨⟨n, hn, -⟩, -⟩ := (State.workOk_ldPollf hp).mp hinv.work
    exact h.willEnd_of_ldPollf ⟨hp, hn, rfl⟩
  | ldCtl =>
    obtain ⟨⟨n, hn, -⟩, -⟩ := (State.workOk_chunk (.inl hp)).mp hinv.work
    exact h.willEnd_of_ldCtl ⟨hp, hn, rfl⟩ fun t ht hat => ht.willEnd_of_ldPollf hat
  | ldData =>
    obtain ⟨⟨n, hn, -⟩, -⟩ := (State.workOk_chunk (.inr hp)).mp hinv.work
    exact h.willEnd_of_ldData ⟨hp, hn, rfl⟩ fun t ht hat => ht.willEnd_of_ldPollf hat
  | ldPolld => exact h.willEnd_of_ldPolld hp
  | ldExit => exact h.willEnd_of_ldExit hp
  | idle | fault | crRd | cwWr | ulChk | ulTrig | iaRd | acRst | acWait | acDis | acWb | acVec | acLvl | acAder | acEn
  | acRb => cases (State.current_of_phase hp).symm.trans hcur

end Sys2Proof.Machine
end
